-- ==== Sys2Proof/Word.lean ====
section
/-! DEFINITION. The words that cross the block's boundary (R80, R81, R93, R94, R95). -/

namespace Sys2Proof

/-- One byte: a cell of the frame buffer, a `TEXTDATA` operand. -/
abbrev Byte := BitVec 8

/-- The 40-bit event word `E[39:0]` (R81). -/
abbrev EventWord := BitVec 40

/-- The 32-bit display word `D[31:0]` (R93). -/
abbrev DisplayWord := BitVec 32

/-- The 40-bit publish word `P[39:0]` (R94). -/
abbrev PublishWord := BitVec 40

/-- The 32-bit response word `S[31:0]` (R95). -/
abbrev ResponseWord := BitVec 32

end Sys2Proof
end

