-- ==== Sys2Proof/Syntax.lean ====
section
/-! DEFINITION. The input events of the block, one constructor per row of the opcode table (R7, R82), the agents they
belong to (R8, R82) and the pseudo-operations (R99). -/

namespace Sys2Proof

/-- An input event, or one word of it: `settext` is the header word of a `SETTEXT` and `textdata` one of the words that
follow it (R92). An operand has the type the spec's notation gives it: an `i32` or `u8` used in arithmetic is an integer
whose range `Instr.wellFormed` checks, a bit set or a stored byte is a bit vector. -/
inductive Instr where
  /-- `RESET` (R83, R230). -/
  | reset
  /-- `SAMPLE raw, gate` (R84, R116). -/
  | sample (raw : Int) (gate : Bool)
  /-- `TICK mask` (R85, R140): bit `i` is 0 when button `i` is pressed. -/
  | tick (mask : BitVec 5)
  /-- `SETTEXT row, col, len` (R86, R152). -/
  | settext (row col len : Nat)
  /-- `TEXTDATA byte` (R87, R165). -/
  | textdata (byte : Byte)
  /-- `RDMAG` (R88, R125). -/
  | rdmag
  /-- `RDPOL` (R89, R126). -/
  | rdpol
  /-- `RDFIRED idx` (R90, R190). -/
  | rdfired (idx : Nat)
deriving DecidableEq, Repr

/-- The agents of R8: who performs an event. -/
inductive Agent where
  | reset
  | sampling
  | timer
  | host
deriving DecidableEq, Repr

/-- The agent column of R82. -/
def Instr.agent : Instr → Agent
  | .reset => .reset
  | .sample _ _ => .sampling
  | .tick _ => .timer
  | .settext _ _ _ => .host
  | .textdata _ => .host
  | .rdmag => .host
  | .rdpol => .host
  | .rdfired _ => .host

/-- `TEXT row, col, "s"` (R99): the header and one `TEXTDATA` per byte. -/
def Instr.text (row col : Nat) (bytes : List Byte) : List Instr :=
  .settext row col bytes.length :: bytes.map .textdata

/-- `RDMEAS` (R99). -/
def Instr.rdmeas : List Instr := [.rdmag, .rdpol]

/-- `TICKS n, mask` (R99). -/
def Instr.ticks (n : Nat) (mask : BitVec 5) : List Instr := List.replicate n (.tick mask)

/-- `SAMPLES n, raw, gate` (R99). -/
def Instr.samples (n : Nat) (raw : Int) (gate : Bool) : List Instr := List.replicate n (.sample raw gate)

/-- `IDLE_TICK` (R99): no button pressed. -/
def Instr.idleTick : Instr := .tick 0b11111#5

end Sys2Proof
end

