-- ==== Sys2Proof/WellFormed.lean ====
section
/-! DEFINITION. Which events have an encoding (R6, R100), and which sequences of events are a serialised trace (R92, R98). -/

namespace Sys2Proof

/-- An `i32` operand (R100). -/
def isI32 (v : Int) : Bool := decide (-2 ^ 31 ≤ v ∧ v ≤ 2 ^ 31 - 1)

/-- A `u8` operand (R100). -/
def isU8 (v : Nat) : Bool := decide (v < 2 ^ 8)

/-- A `u3` operand (R100): 5, 6 and 7 are encodable and raise `BadIndex` when performed (R90). -/
def isU3 (v : Nat) : Bool := decide (v < 2 ^ 3)

/-- Every operand lies in the range of its field (R100), so that the event has an event word. -/
def Instr.wellFormed : Instr → Bool
  | .reset => true
  | .sample raw _ => isI32 raw
  | .tick _ => true
  | .settext row col len => isU8 row && isU8 col && isU8 len
  | .textdata _ => true
  | .rdmag => true
  | .rdpol => true
  | .rdfired idx => isU3 idx

/-- A serialised trace in which `need` data words are still owed: every event is well formed and the words of a `SETTEXT`
stand contiguously, exactly `len` `TEXTDATA` after its header and none elsewhere (R92, R98). -/
def wellFormedTraceFrom : Nat → List Instr → Bool
  | need, [] => need == 0
  | 0, .textdata _ :: _ => false
  | 0, .settext row col len :: rest => (Instr.settext row col len).wellFormed && wellFormedTraceFrom len rest
  | 0, i :: rest => i.wellFormed && wellFormedTraceFrom 0 rest
  | need + 1, .textdata _ :: rest => wellFormedTraceFrom need rest
  | _ + 1, _ => false

/-- A serialised trace (R98). -/
def wellFormedTrace (trace : List Instr) : Bool := wellFormedTraceFrom 0 trace

end Sys2Proof
end

