-- ==== Sys2Proof/Decode.lean ====
section
/-! DEFINITION. The event word: its fields, the decoder (R82, R91, R101), the byte order (R96), the encoder (R83 to R90),
the opcode table, and the trace syntax (R98, R99). -/

namespace Sys2Proof

/-- `E[hi:lo]` as an unsigned integer (notation of the scope file, section 7). -/
def field (e : EventWord) (hi lo : Nat) : Nat := e.toNat / 2 ^ lo % 2 ^ (hi + 1 - lo)

/-- Why a word spells no event (R91), or why bytes hold no word. -/
inductive Reject where
  /-- R91 (a): the `op` is not one of the nine of R82. -/
  | unassignedOp
  /-- R91 (b): a bit of `arg` that R82 requires to be 0 is 1. -/
  | reservedBits
  /-- Fewer than the five bytes of a word (R96). -/
  | truncated
deriving DecidableEq, Repr

/-- An event whose must-be-zero bits are the number `rest`. -/
def whenZero (rest : Nat) (i : Instr) : Except Reject Instr := if rest = 0 then .ok i else .error .reservedBits

/-- The decoder of R101, total on 40-bit words. -/
def decode (e : EventWord) : Except Reject Instr :=
  match field e 39 32 with
  | 0x01 => whenZero (field e 31 0) .reset
  | 0x10 => .ok (.sample (BitVec.ofNat 32 (field e 31 0)).toInt false)
  | 0x11 => .ok (.sample (BitVec.ofNat 32 (field e 31 0)).toInt true)
  | 0x20 => whenZero (field e 31 5) (.tick (BitVec.ofNat 5 (field e 4 0)))
  | 0x30 => whenZero (field e 31 24) (.settext (field e 23 16) (field e 15 8) (field e 7 0))
  | 0x31 => whenZero (field e 31 8) (.textdata (BitVec.ofNat 8 (field e 7 0)))
  | 0x40 => whenZero (field e 31 0) .rdmag
  | 0x41 => whenZero (field e 31 0) .rdpol
  | 0x42 => whenZero (field e 31 3) (.rdfired (field e 2 0))
  | _ => .error .unassignedOp

/-- `n` bytes of a word, most significant first (R96). -/
def wordBytes : Nat → Nat → List Byte
  | 0, _ => []
  | n + 1, v => BitVec.ofNat 8 (v / 256 ^ n % 256) :: wordBytes n v

/-- The number spelled by bytes, most significant first (R96). -/
def bytesWord (bytes : List Byte) : Nat := bytes.foldl (fun v b => v * 256 + b.toNat) 0

/-- The decoder on a byte stream: one five-byte word, `op` byte first, and the bytes after it (R96). -/
def decodeBytes : List Byte → Except Reject (Instr × List Byte)
  | b4 :: b3 :: b2 :: b1 :: b0 :: rest =>
    match decode (BitVec.ofNat 40 (bytesWord [b4, b3, b2, b1, b0])) with
    | .ok i => .ok (i, rest)
    | .error r => .error r
  | _ => .error .truncated

/-- The instruction of an opcode-table word: `w` numbered as the table numbers it (bit 0 is `E[0]`), at most 40 bits, laid
out as its five bytes. -/
def decodeTableWord (nbits w : Nat) : Option Instr :=
  if w < 2 ^ nbits ∧ w < 2 ^ 40 then
    match decodeBytes (wordBytes 5 w) with
    | .ok (i, _) => some i
    | .error _ => none
  else none

/-- An event word from its `op` and `arg` (R81). -/
def eventWord (op arg : Nat) : EventWord := BitVec.ofNat 40 (op * 2 ^ 32 + arg)

/-- The event word of a well-formed event (R83 to R90). -/
def encode : Instr → EventWord
  | .reset => eventWord 0x01 0
  | .sample raw false => eventWord 0x10 (BitVec.ofInt 32 raw).toNat
  | .sample raw true => eventWord 0x11 (BitVec.ofInt 32 raw).toNat
  | .tick mask => eventWord 0x20 mask.toNat
  | .settext row col len => eventWord 0x30 (row * 2 ^ 16 + col * 2 ^ 8 + len)
  | .textdata byte => eventWord 0x31 byte.toNat
  | .rdmag => eventWord 0x40 0
  | .rdpol => eventWord 0x41 0
  | .rdfired idx => eventWord 0x42 idx

/-- The five bytes of a well-formed event, in the order they are sent (R96). -/
def encodeBytes (i : Instr) : List Byte := wordBytes 5 (encode i).toNat

/-- A row of the opcode table: a word is the row's exactly when its bits under `mask` are `bits`. -/
structure OpcodeRow where
  mnemonic : String
  bits : EventWord
  mask : EventWord
deriving DecidableEq, Repr

/-- Is the word one of the row's? -/
def OpcodeRow.spells (row : OpcodeRow) (e : EventWord) : Bool := (e &&& row.mask) == row.bits

/-- The opcode table, row by row in the table's order. -/
def opcodeTable : List OpcodeRow :=
  [ ⟨"RESET", 0x0100000000#40, 0xFFFFFFFFFF#40⟩,
    ⟨"SAMPLE", 0x1000000000#40, 0xFE00000000#40⟩,
    ⟨"TICK", 0x2000000000#40, 0xFFFFFFFFE0#40⟩,
    ⟨"SETTEXT", 0x3000000000#40, 0xFFFF000000#40⟩,
    ⟨"TEXTDATA", 0x3100000000#40, 0xFFFFFFFF00#40⟩,
    ⟨"RDMAG", 0x4000000000#40, 0xFFFFFFFFFF#40⟩,
    ⟨"RDPOL", 0x4100000000#40, 0xFFFFFFFFFF#40⟩,
    ⟨"RDFIRED", 0x4200000000#40, 0xFFFFFFFFF8#40⟩ ]

/-- The `op` column of R82. -/
def Instr.op : Instr → Nat
  | .reset => 0x01
  | .sample _ false => 0x10
  | .sample _ true => 0x11
  | .tick _ => 0x20
  | .settext _ _ _ => 0x30
  | .textdata _ => 0x31
  | .rdmag => 0x40
  | .rdpol => 0x41
  | .rdfired _ => 0x42

/-- The table's mnemonic of an event. -/
def Instr.mnemonic : Instr → String
  | .reset => "RESET"
  | .sample _ _ => "SAMPLE"
  | .tick _ => "TICK"
  | .settext _ _ _ => "SETTEXT"
  | .textdata _ => "TEXTDATA"
  | .rdmag => "RDMAG"
  | .rdpol => "RDPOL"
  | .rdfired _ => "RDFIRED"

/-- The line of a trace that writes an event (R98), mnemonic upper case and operands separated by a comma. -/
def Instr.line : Instr → String
  | .reset => "RESET"
  | .sample raw gate => "SAMPLE " ++ toString raw ++ ", " ++ (if gate then "1" else "0")
  | .tick mask => "TICK " ++ toString mask.toNat
  | .settext row col len => "SETTEXT " ++ toString row ++ ", " ++ toString col ++ ", " ++ toString len
  | .textdata byte => "TEXTDATA " ++ toString byte.toNat
  | .rdmag => "RDMAG"
  | .rdpol => "RDPOL"
  | .rdfired idx => "RDFIRED " ++ toString idx

/-! ## Reading a trace (R98, R99) -/

/-- The quote open after the character `c`, `none` outside quotes. -/
def quoteAfter (q : Option Char) (c : Char) : Option Char :=
  match q with
  | none => if c = '\'' ∨ c = '"' then some c else none
  | some o => if c = o then none else some o

/-- A line without its comment: everything from the first `;` outside quotes is dropped (R98). -/
def stripComment : Option Char → List Char → List Char
  | _, [] => []
  | q, c :: cs => if q = none ∧ c = ';' then [] else c :: stripComment (quoteAfter q c) cs

/-- The parts of a line between separators outside quotes; `cur` is the part begun, its last character first. -/
def splitOutside (sep : Char) : Option Char → List Char → List Char → List (List Char)
  | _, cur, [] => [cur.reverse]
  | q, cur, c :: cs =>
    if q = none ∧ c = sep then cur.reverse :: splitOutside sep none [] cs
    else splitOutside sep (quoteAfter q c) (c :: cur) cs

/-- Without the spaces around it. -/
def trimSpaces (cs : List Char) : List Char := ((cs.dropWhile (· = ' ')).reverse.dropWhile (· = ' ')).reverse

/-- The value of a digit. -/
def digitValue (c : Char) : Nat :=
  if '0' ≤ c ∧ c ≤ '9' then c.toNat - 48
  else if 'a' ≤ c ∧ c ≤ 'f' then c.toNat - 87
  else if 'A' ≤ c ∧ c ≤ 'F' then c.toNat - 55
  else 16

/-- A number in a base: at least one digit, and only digits of the base. -/
def readDigits (base : Nat) (cs : List Char) : Option Nat :=
  if cs ≠ [] ∧ cs.all (fun c => digitValue c < base) then some (cs.foldl (fun n c => n * base + digitValue c) 0) else none

/-- An unsigned operand: decimal, `0x` or `0b`. -/
def readNat : List Char → Option Nat
  | '0' :: 'x' :: ds => readDigits 16 ds
  | '0' :: 'b' :: ds => readDigits 2 ds
  | ds => readDigits 10 ds

/-- `raw`: "a signed decimal or `0x` pattern of 32 bits" (R98). -/
def readRaw : List Char → Option Int
  | '-' :: ds => (readDigits 10 ds).map fun n => -n
  | '0' :: 'x' :: ds => (readDigits 16 ds).bind fun n => if n < 2 ^ 32 then some (BitVec.ofNat 32 n).toInt else none
  | ds => (readDigits 10 ds).map fun n => n

/-- `gate`: 0 or 1. -/
def readGate (cs : List Char) : Option Bool := if cs = ['0'] then some false else if cs = ['1'] then some true else none

/-- `mask`: a 5-bit value. -/
def readMask (cs : List Char) : Option (BitVec 5) :=
  (readNat cs).bind fun n => if n < 2 ^ 5 then some (BitVec.ofNat 5 n) else none

/-- A character as one byte. The spec names no character set: one above 127 is refused (log 13). -/
def charByte (c : Char) : Option Byte := if c.toNat < 128 then some (BitVec.ofNat 8 c.toNat) else none

/-- `byte`: 0 to 255, decimal, `0x`, or a quoted character (R98). -/
def readByte : List Char → Option Byte
  | ['\'', c, '\''] => charByte c
  | cs => (readNat cs).bind fun n => if n < 2 ^ 8 then some (BitVec.ofNat 8 n) else none

/-- A quoted string, as its bytes (R99). -/
def readString : List Char → Option (List Byte)
  | '"' :: cs => if cs.getLast? = some '"' then cs.dropLast.mapM charByte else none
  | _ => none

/-- The events of a line's mnemonic and operands: one for an event, its expansion for a pseudo-operation (R98, R99). -/
def readEvents (mnemonic : String) (operands : List (List Char)) : Option (List Instr) :=
  match mnemonic, operands with
  | "RESET", [] => some [.reset]
  | "SAMPLE", [raw, gate] => do return [.sample (← readRaw raw) (← readGate gate)]
  | "TICK", [mask] => do return [.tick (← readMask mask)]
  | "SETTEXT", [row, col, len] => do return [.settext (← readNat row) (← readNat col) (← readNat len)]
  | "TEXTDATA", [byte] => do return [.textdata (← readByte byte)]
  | "RDMAG", [] => some [.rdmag]
  | "RDPOL", [] => some [.rdpol]
  | "RDFIRED", [idx] => do return [.rdfired (← readNat idx)]
  | "TEXT", [row, col, text] => do return Instr.text (← readNat row) (← readNat col) (← readString text)
  | "RDMEAS", [] => some Instr.rdmeas
  | "TICKS", [n, mask] => do return Instr.ticks (← readNat n) (← readMask mask)
  | "SAMPLES", [n, raw, gate] => do return Instr.samples (← readNat n) (← readRaw raw) (← readGate gate)
  | "IDLE_TICK", [] => some [Instr.idleTick]
  | _, _ => none

/-- The events a line of a trace writes: none for an empty or comment line; `none` for a line that is not of the syntax or
names an operand no event word can carry. -/
def readLine (line : List Char) : Option (List Instr) :=
  let body := trimSpaces (stripComment none line)
  if body = [] then some []
  else
    let word := body.takeWhile (· ≠ ' ')
    let rest := trimSpaces (body.dropWhile (· ≠ ' '))
    let operands := if rest = [] then [] else (splitOutside ',' none [] rest).map trimSpaces
    (readEvents (String.ofList word) operands).bind fun is => if is.all Instr.wellFormed then some is else none

/-- A trace, read line by line, performed top to bottom (R98); its `SETTEXT`s must be whole (`wellFormedTrace`). -/
def readTrace (lines : List (List Char)) : Option (List Instr) :=
  (lines.mapM readLine).bind fun iss => if wellFormedTrace iss.flatten then some iss.flatten else none

end Sys2Proof
end

