-- ==== Sys2Proof/Config.lean ====
section
/-! DEFINITION. The implementation parameters of R5, with the legal range of each, and the free values that stand for
the OPEN ones in the machine the package calls `State.reset`. -/

namespace Sys2Proof

/-- The configuration constants of R5. Each field is the parameter of that name, each `_legal` field its legal range:
a configuration outside the ranges (U11, U12: `refuse`) cannot be written down. A default is the source's (R5) or the
spec's decided value (D15, D23); an OPEN parameter has none, so that whoever builds a configuration must give it. -/
structure Config where
  /-- `CYCLE_THRESHOLD`, u32. -/
  cycleThreshold : Nat := 10
  /-- `BASELINE_OFFSET`, i32, OPEN (D8). -/
  baselineOffset : Int
  /-- `ON_THRESHOLD`, u32. -/
  onThreshold : Nat := 100
  /-- `REPEAT_DELAY`, u32. -/
  repeatDelay : Nat := 300
  /-- `REPEAT_PERIOD`, u32. -/
  repeatPeriod : Nat := 300
  /-- `W`, display columns, OPEN (D9). -/
  width : Nat
  /-- `H`, display rows, OPEN (D9). -/
  height : Nat
  /-- `MAG_RESET`, i32, OPEN (D17). -/
  magReset : Int
  /-- `POL_RESET`, i8, OPEN, not restricted to +1 and -1 (D17). -/
  polReset : Int
  /-- `FB_RESET`, OPEN (D19): the byte at position `k` is `FB_RESET(k)`. -/
  fbReset : List Byte
  /-- `RELEASE_KEEPS_HOLD` (D23, R188). -/
  releaseKeepsHold : Bool := true
  /-- `PUBLISH_ATOMIC` (D15, R241). -/
  publishAtomic : Bool := true
  cycleThreshold_legal : 1 ≤ cycleThreshold ∧ cycleThreshold ≤ 2 ^ 32 - 1 := by decide
  baselineOffset_legal : -2 ^ 31 ≤ baselineOffset ∧ baselineOffset ≤ 2 ^ 31 - 1 := by decide
  onThreshold_legal : 1 ≤ onThreshold ∧ onThreshold ≤ 2 ^ 32 - 1 := by decide
  repeatDelay_legal : 1 ≤ repeatDelay ∧ repeatDelay ≤ 2 ^ 32 - 1 := by decide
  repeatPeriod_legal : 1 ≤ repeatPeriod ∧ repeatPeriod ≤ 2 ^ 32 - 1 := by decide
  width_legal : 1 ≤ width ∧ width ≤ 255 := by decide
  height_legal : 1 ≤ height ∧ height ≤ 255 := by decide
  magReset_legal : -2 ^ 31 ≤ magReset ∧ magReset ≤ 2 ^ 31 - 1 := by decide
  polReset_legal : -2 ^ 7 ≤ polReset ∧ polReset ≤ 2 ^ 7 - 1 := by decide
  fbReset_legal : fbReset.length = width * height := by decide
deriving DecidableEq, Repr

/-- FREE VALUE (log 2): `BASELINE_OFFSET` of the machine `State.reset` starts. -/
opaque Config.freeBaselineOffset : BitVec 32

/-- FREE VALUE (log 2): one less than `W`, so that `W` lies in 1 to 255 whatever it is. -/
opaque Config.freeWidthLessOne : Fin 255

/-- FREE VALUE (log 2): one less than `H`. -/
opaque Config.freeHeightLessOne : Fin 255

/-- FREE VALUE (log 2): `MAG_RESET`. -/
opaque Config.freeMagReset : BitVec 32

/-- FREE VALUE (log 2): `POL_RESET`. -/
opaque Config.freePolReset : BitVec 8

/-- FREE VALUE (log 2): `FB_RESET`, one byte for each offset. -/
opaque Config.freeFbReset : Nat → BitVec 8

theorem Config.i32_range (v : BitVec 32) : -2 ^ 31 ≤ v.toInt ∧ v.toInt ≤ 2 ^ 31 - 1 := by
  have h1 := BitVec.le_toInt v
  have h2 := BitVec.toInt_lt (x := v)
  omega

theorem Config.i8_range (v : BitVec 8) : -2 ^ 7 ≤ v.toInt ∧ v.toInt ≤ 2 ^ 7 - 1 := by
  have h1 := BitVec.le_toInt v
  have h2 := BitVec.toInt_lt (x := v)
  omega

theorem Config.size_range (n : Fin 255) : 1 ≤ n.val + 1 ∧ n.val + 1 ≤ 255 := by
  have h := n.isLt
  omega

/-- The configuration of `State.reset`: the defaults of R5, the decided variants of D15 and D23, and a free value for
every OPEN parameter, which no proof can see (R11, R231: "A model must not take them to be zero, `+1`, `-1` or a space
character"). -/
def Config.reset : Config where
  baselineOffset := Config.freeBaselineOffset.toInt
  width := Config.freeWidthLessOne.val + 1
  height := Config.freeHeightLessOne.val + 1
  magReset := Config.freeMagReset.toInt
  polReset := Config.freePolReset.toInt
  fbReset := (List.range ((Config.freeWidthLessOne.val + 1) * (Config.freeHeightLessOne.val + 1))).map Config.freeFbReset
  baselineOffset_legal := Config.i32_range _
  width_legal := Config.size_range _
  height_legal := Config.size_range _
  magReset_legal := Config.i32_range _
  polReset_legal := Config.i8_range _
  fbReset_legal := by simp

end Sys2Proof
end

