-- ==== Sys2Proof/Machine/State.lean ====
section
/-! DEFINITION. Everything the block holds (R20 to R45), what its ports carry (R80), why a step can stop, and the state
after reset. -/

namespace Sys2Proof.Machine

/-- Five like things, one per button (R33: `N = 5`). -/
structure Five (α : Type) where
  b0 : α
  b1 : α
  b2 : α
  b3 : α
  b4 : α
deriving DecidableEq, Repr

/-- DemodulationState (R20 to R25). -/
structure DemodulationState where
  /-- `gate_count: u32` (R20). -/
  gateCount : BitVec 32
  /-- `sample_count: u32` (R21). -/
  sampleCount : BitVec 32
  /-- `signed_accumulator: i64` (R22). -/
  signedAccumulator : BitVec 64
  /-- `positive_sum: i64` (R23). -/
  positiveSum : BitVec 64
  /-- `negative_sum: i64` (R23). -/
  negativeSum : BitVec 64
  /-- `prev_gate: bool` (R24). -/
  prevGate : Bool
deriving DecidableEq, Repr

/-- PublishedMeasurement (R27, R28): the two levels of the publish port (R80). -/
structure PublishedMeasurement where
  /-- `magnitude: i32` (R27). -/
  magnitude : BitVec 32
  /-- `polarity: i8` (R28). -/
  polarity : BitVec 8
deriving DecidableEq, Repr

/-- `btn[i].stage` (R36). -/
inductive ButtonStage where
  | idle
  | held
  | repeating
deriving DecidableEq, Repr

/-- `btn[i]` (R33). -/
structure ButtonState where
  /-- `hold_ticks: u32` (R34). -/
  holdTicks : BitVec 32
  /-- `press_count: u32` (R35): no event but `RESET` touches it. -/
  pressCount : BitVec 32
  /-- `stage` (R36). -/
  stage : ButtonStage
deriving DecidableEq, Repr

/-- `disp.stage` (R40). -/
inductive DisplayStage where
  | idle
  | positionRow
  | positionColumn
  | emit
deriving DecidableEq, Repr

/-- The registers of DisplayMultiplexer beside the frame buffer (R39 to R41). -/
structure DisplayRegs where
  /-- `disp.cursor: u16` (R39). -/
  cursor : BitVec 16
  /-- `disp.stage` (R40). -/
  stage : DisplayStage
  /-- `disp.dirty: bool` (R41). -/
  dirty : Bool
deriving DecidableEq, Repr

/-- `frame_buffer` (R38): the cells that hold another byte than the one `RESET` put there, by rising offset.
`Memory.wf` (Machine/Ops.lean) says so. -/
abbrev Memory := List Host.Cell

/-- The text assembly buffer of the host port (R43, R92) and the count `need` of R101 (log 10). All zero when no text is
open. -/
structure TextAssembly where
  row : Nat
  col : Nat
  /-- `TEXTDATA` words still owed. -/
  need : Nat
  /-- Bytes received so far, the first one first. -/
  bytes : List Byte
deriving DecidableEq, Repr

/-- The operand pins of the sample port: `smp_raw[31:0]` and `smp_gate` (R80). -/
structure SamplePins where
  raw : BitVec 32
  gate : Bool
deriving DecidableEq, Repr

/-- One instant at the input ports (R80, R97): what each port whose `valid` is asserted delivers. -/
structure PortInputs where
  /-- The reset port: `rst`. -/
  reset : Bool := false
  /-- The sample port: `smp_raw`, `smp_gate`. -/
  sample : Option SamplePins := none
  /-- The tick port: `btn_raw_n[4:0]`. -/
  tick : Option (BitVec 5) := none
  /-- The host port: `host_word[39:0]`. -/
  host : Option EventWord := none
deriving DecidableEq, Repr

/-- The input ports of R80. -/
inductive InPort where
  | reset
  | sample
  | tick
  | host
deriving DecidableEq, Repr

/-- The registers `ArithRange` names (R204). -/
inductive ArithReg where
  | signedAccumulator
  | positiveSum
  | negativeSum
  | sampleCount
  | magnitude
deriving DecidableEq, Repr

/-- The faults the SPEC gives the block (R201 to R205). Raising one is not the end of a run of this model: it is a next
state, with `faulted` and `fault_code` written (R200, `Machine.raise`). -/
inductive FaultKind where
  | illegalWord
  | badSequence
  | badIndex (idx : Nat)
  | arithRange (reg : ArithReg)
deriving DecidableEq, Repr

/-- The whole machine: the block's registers, and the model's record of its boundary: the configuration (R5, R9; log 1),
what the ports have sent (DESIGN CHOICE, log 5), and the events not yet performed (DESIGN CHOICE, log 3). -/
structure State where
  /-- The configuration constants (R5, R30): no event writes them (DESIGN CHOICE, log 1). -/
  cfg : Config
  demod : DemodulationState
  published : PublishedMeasurement
  /-- With `PUBLISH_ATOMIC = false` only (R241): the polarity a half-done publish has still to write (DESIGN CHOICE,
  log 9). -/
  publishHalf : Option (BitVec 8)
  btn : Five ButtonState
  /-- `fired[0..4]` (R37). -/
  fired : Five Bool
  mem : Memory
  disp : DisplayRegs
  /-- `faulted` (R31): a level of the fault port. -/
  faulted : Bool
  /-- `fault_code: u8` (R31): a level of the fault port. -/
  faultCode : BitVec 8
  text : TextAssembly
  /-- Display words emitted so far, the first one first (R93). -/
  displayOut : List DisplayWord
  /-- Publish words emitted so far, the first one first (R94). -/
  publishOut : List PublishWord
  /-- Response words given so far, the first one first (R95). -/
  responses : List ResponseWord
  /-- The trace not yet performed (R7, R12): instants still to come at the input ports, the next one first. -/
  inputs : List PortInputs
deriving DecidableEq, Repr

/-- Why the model stops. The spec's own faults are no constructor of this type: they are next states (`FaultKind`). -/
inductive Fault where
  /-- Raised by the display step of `TICK` (R158 to R160) when `disp.cursor` is not below `W×H`: the cell it addresses
  does not exist (R60, R64). No state reached from `RESET` does this (R42). SAFE: the model stops, the spec gives no
  effect. -/
  | noSuchCell (cursor : Nat)
deriving DecidableEq, Repr

/-- Why the model refuses. -/
inductive Refusal where
  /-- Raised by an arm of `exec` whose instruction has no meaning yet; no arm does. SAFE. -/
  | notModelled (mnemonic : String)
deriving DecidableEq, Repr

/-- What a meaning or a step answers. -/
abbrev Result := Host.Outcome State Fault Refusal

/-- DemodulationState after `RESET` and, but for `prev_gate`, after a publish (R45, R120). -/
def DemodulationState.zero : DemodulationState := ⟨0, 0, 0, 0, 0, false⟩

/-- `btn[i]` after `RESET` (R45). -/
def ButtonState.zero : ButtonState := ⟨0, 0, .idle⟩

/-- The display registers after `RESET` (R45). -/
def DisplayRegs.zero : DisplayRegs := ⟨0, .idle, false⟩

/-- No text open: `need = 0` (R101). -/
def TextAssembly.none : TextAssembly := ⟨0, 0, 0, []⟩

/-- The state after `RESET` (R45) of a machine with configuration `c`, with nothing sent and nothing to perform. -/
def State.resetWith (c : Config) : State where
  cfg := c
  demod := .zero
  published := ⟨BitVec.ofInt 32 c.magReset, BitVec.ofInt 8 c.polReset⟩
  publishHalf := Option.none
  btn := ⟨.zero, .zero, .zero, .zero, .zero⟩
  fired := ⟨false, false, false, false, false⟩
  mem := []
  disp := .zero
  faulted := false
  faultCode := 0
  text := .none
  displayOut := []
  publishOut := []
  responses := []
  inputs := []

/-- The machine right after reset, its OPEN parameters free (log 2). -/
def State.reset : State := State.resetWith Config.reset

end Sys2Proof.Machine
end

