-- ==== Sys2Proof/Machine/Ops.lean ====
section
/-! DEFINITION. The named operations over the state that the meanings share: the five-fold register files, the frame
buffer, the register writes, the output ports, raising a fault and coming back from one. -/

namespace Sys2Proof.Machine

/-! ## Register files of five (R33, R62) -/

/-- Element `i`. -/
def Five.get {α : Type} (f : Five α) : Fin 5 → α
  | 0 => f.b0
  | 1 => f.b1
  | 2 => f.b2
  | 3 => f.b3
  | 4 => f.b4

/-- The five values of a function of the button index. -/
def Five.ofFn {α : Type} (f : Fin 5 → α) : Five α := ⟨f 0, f 1, f 2, f 3, f 4⟩

/-- Element `i` replaced. -/
def Five.set {α : Type} (f : Five α) (i : Fin 5) (v : α) : Five α := Five.ofFn fun j => if j = i then v else f.get j

/-! ## The frame buffer (R38, R60, R61) -/

end Sys2Proof.Machine

namespace Sys2Proof

/-- `W×H`, the number of cells (R60). -/
def Config.cells (c : Config) : Nat := c.width * c.height

/-- `FB_RESET(k)` (R5): what the cell at offset `k` holds after `RESET`, and what an offset `Memory` does not list reads as
(an offset at or past `W×H` has no byte: no meaning reads one, log 11). -/
def Config.fbResetAt (c : Config) (k : Nat) : Byte := c.fbReset.getD k 0

end Sys2Proof

namespace Sys2Proof.Machine

/-- `MemRead(k, 1)` (scope file, section 7). -/
def Memory.read (c : Config) : Memory → Nat → Byte
  | [], k => c.fbResetAt k
  | (a, v) :: m, k => if k = a then v else Memory.read c m k

/-- Without the cell at `k`. -/
def Memory.erase : Memory → Nat → Memory
  | [], _ => []
  | (a, v) :: m, k => if k = a then m else if k < a then (a, v) :: m else (a, v) :: Memory.erase m k

/-- With the cell at `k` holding `v`, in its place. -/
def Memory.insert : Memory → Nat → Byte → Memory
  | [], k, v => [(k, v)]
  | (a, w) :: m, k, v =>
    if k = a then (k, v) :: m else if k < a then (k, v) :: (a, w) :: m else (a, w) :: Memory.insert m k v

/-- `MemWrite(k, 1, v)` (scope file, section 7), in canonical form: a byte equal to the cell's reset byte is not listed. -/
def Memory.write (c : Config) (m : Memory) (k : Nat) (v : Byte) : Memory :=
  if v = c.fbResetAt k then Memory.erase m k else Memory.insert m k v

/-- Offsets strictly rising, each one above all before it. -/
def Memory.rising : Memory → Bool
  | [] => true
  | (a, _) :: m => m.all (fun p => decide (a < p.1)) && Memory.rising m

/-- The canonical form: rising offsets, each of a cell that exists, none listed with its reset byte. -/
def Memory.wf (c : Config) (m : Memory) : Bool :=
  Memory.rising m && m.all (fun p => decide (p.1 < c.cells) && decide (p.2 ≠ c.fbResetAt p.1))

/-- The copy of R152 and R154: bytes to consecutive offsets from `off`, those at or past `W×H` dropped. -/
def Memory.copyText (c : Config) : Memory → Nat → List Byte → Memory
  | m, _, [] => m
  | m, off, b :: bs => Memory.copyText c (if off < c.cells then Memory.write c m off b else m) (off + 1) bs

/-- `frame_buffer[k]`. -/
def State.cell (s : State) (k : Nat) : Byte := Memory.read s.cfg s.mem k

/-! ## Register writes -/

def State.setDemod (s : State) (d : DemodulationState) : State := { s with demod := d }
def State.setPublished (s : State) (p : PublishedMeasurement) : State := { s with published := p }
def State.setPublishHalf (s : State) (p : Option (BitVec 8)) : State := { s with publishHalf := p }
def State.setButtons (s : State) (b : Five ButtonState) : State := { s with btn := b }
def State.setFired (s : State) (f : Five Bool) : State := { s with fired := f }
def State.setMem (s : State) (m : Memory) : State := { s with mem := m }
def State.setDisp (s : State) (d : DisplayRegs) : State := { s with disp := d }
def State.setAssembly (s : State) (t : TextAssembly) : State := { s with text := t }
def State.setInputs (s : State) (is : List PortInputs) : State := { s with inputs := is }
/-- `faulted` and `fault_code` together (R31). -/
def State.setFault (s : State) (f : Bool) (code : BitVec 8) : State := { s with faulted := f, faultCode := code }

/-! ## Output ports (R80, R93 to R95) -/

/-- One word on the display port. -/
def State.emitDisplay (s : State) (w : DisplayWord) : State := { s with displayOut := s.displayOut ++ [w] }
/-- One word on the publish port. -/
def State.emitPublish (s : State) (w : PublishWord) : State := { s with publishOut := s.publishOut ++ [w] }
/-- The response word of the event. -/
def State.respond (s : State) (w : ResponseWord) : State := { s with responses := s.responses ++ [w] }

/-- The levels of the publish port, `magnitude[31:0]` and `polarity[7:0]` (R80). -/
def State.publishLevels (s : State) : BitVec 32 × BitVec 8 := (s.published.magnitude, s.published.polarity)

/-- The levels of the fault port, `faulted` and `fault_code[7:0]` (R80). -/
def State.faultLevels (s : State) : Bool × BitVec 8 := (s.faulted, s.faultCode)

/-! ## Faults (R200 to R205) -/

/-- The sub-codes of `ArithRange` (R205). -/
def ArithReg.code : ArithReg → BitVec 8
  | .signedAccumulator => 0x10
  | .positiveSum => 0x11
  | .negativeSum => 0x12
  | .sampleCount => 0x13
  | .magnitude => 0x14

/-- `fault_code` (R205). -/
def FaultKind.code : FaultKind → BitVec 8
  | .illegalWord => 0x01
  | .badSequence => 0x02
  | .badIndex _ => 0x03
  | .arithRange reg => reg.code

/-- `raise F` (R200): `faulted` and `fault_code` are written and nothing else, so `s` is the state BEFORE the event. A
faulted block keeps the code of the first fault. -/
def raise (f : FaultKind) (s : State) : State := if s.faulted then s else s.setFault true f.code

/-- `BadSequence` (R202): raised, and the partly received text discarded. -/
def raiseBadSequence (s : State) : State := if s.faulted then s else (raise .badSequence s).setAssembly .none

/-- "While `faulted` is `true`, every event except `RESET` is ignored" (R200). -/
def unlessFaulted (s : State) (effect : State → State) : State := if s.faulted then s else effect s

/-- A complete event on the host port (R101): a word other than `TEXTDATA` while data words are owed is a `BadSequence`. -/
def hostEvent (s : State) (effect : State → State) : State :=
  unlessFaulted s fun s => if s.text.need = 0 then effect s else raiseBadSequence s

/-- The return from a fault, and every other reset value (R230): the constants, the words already sent and the events
still to come are not the block's state and stay. -/
def resetBlock (s : State) : State :=
  { s with
    demod := ⟨0, 0, 0, 0, 0, false⟩
    published := ⟨BitVec.ofInt 32 s.cfg.magReset, BitVec.ofInt 8 s.cfg.polReset⟩
    publishHalf := none
    btn := Five.ofFn fun _ => ⟨0, 0, .idle⟩
    fired := Five.ofFn fun _ => false
    mem := []
    disp := ⟨0, .idle, false⟩
    faulted := false
    faultCode := 0
    text := .none }

end Sys2Proof.Machine
end

