-- ==== Sys2Proof/Machine/Operands.lean ====
section
/-! DEFINITION. How operands and results are formed: centring and accumulation in `Z`, the range checks, truncating
division, cell offsets, the active set of buttons, and the output and response words. -/

namespace Sys2Proof.Machine

/-! ## The demodulator's arithmetic, exact in `Z` (R111 to R114, R117, R122) -/

/-- Does the integer fit an `i64`? -/
def fitsI64 (v : Int) : Bool := decide (-2 ^ 63 ≤ v ∧ v ≤ 2 ^ 63 - 1)

/-- Does the integer fit an `i32`? -/
def fitsI32 (v : Int) : Bool := decide (-2 ^ 31 ≤ v ∧ v ≤ 2 ^ 31 - 1)

/-- Does the natural number fit a `u32`? -/
def fitsU32 (v : Nat) : Bool := decide (v ≤ 2 ^ 32 - 1)

/-- Step 1, `value` (R111): not reduced to 32 bits (D10). -/
def centred (c : Config) (raw : Int) : Int := raw - c.baselineOffset

/-- `tdiv` (scope file, section 7): rounded toward zero. -/
def tdiv (a b : Int) : Int := Int.tdiv a b

/-- The primed values of R116: what steps 1 to 4 produce, before any of them is written. -/
structure Accumulated where
  acc : Int
  ps : Int
  ns : Int
  sc : Nat
  gc : Nat
  pg : Bool
deriving DecidableEq, Repr

/-- Those values as register contents. -/
def Accumulated.registers (a : Accumulated) : DemodulationState :=
  ⟨BitVec.ofNat 32 a.gc, BitVec.ofNat 32 a.sc, BitVec.ofInt 64 a.acc, BitVec.ofInt 64 a.ps, BitVec.ofInt 64 a.ns, a.pg⟩

/-- The first check of R116 that fails (R124, R222): `acc'`, `ps'`, `ns'`, `sc'` in that order. -/
def Accumulated.overflow (a : Accumulated) : Option ArithReg :=
  if !fitsI64 a.acc then some .signedAccumulator
  else if !fitsI64 a.ps then some .positiveSum
  else if !fitsI64 a.ns then some .negativeSum
  else if !fitsU32 a.sc then some .sampleCount
  else none

/-! ## Cells (R61) -/

/-- The linear offset `col + row*W`. -/
def linearOffset (c : Config) (row col : Nat) : Nat := col + row * c.width

/-- The row of the cell at an offset, `k div W`. -/
def rowOf (c : Config) (k : Nat) : Nat := k / c.width

/-- The column of the cell at an offset, `k mod W`. -/
def colOf (c : Config) (k : Nat) : Nat := k % c.width

/-! ## Buttons (R181, R182) -/

/-- The inversion of R181: `active = (~mask) & 0b11111`. -/
def activeMask (mask : BitVec 5) : BitVec 5 := ~~~mask

/-- Is button `i` held in this tick? -/
def isHeld (mask : BitVec 5) (i : Fin 5) : Bool := (activeMask mask).getLsbD i.val

/-! ## Words out (R93 to R95) -/

/-- The display word `{kind, row, col, byte}` (R93). -/
def displayWord (kind row col byte : Nat) : DisplayWord :=
  BitVec.ofNat 8 kind ++ BitVec.ofNat 8 row ++ BitVec.ofNat 8 col ++ BitVec.ofNat 8 byte

/-- SETCURSOR for the cell at offset `k` (R93, R158). -/
def setCursorWord (c : Config) (k : Nat) : DisplayWord := displayWord 0x01 (rowOf c k) (colOf c k) 0

/-- POSITION for the cell at offset `k` (R93, R159). -/
def positionWord (c : Config) (k : Nat) : DisplayWord := displayWord 0x02 (rowOf c k) (colOf c k) 0

/-- DATA (R93, R160). -/
def dataWord (byte : Byte) : DisplayWord := displayWord 0x03 0 0 byte.toNat

/-- The publish word `{pattern_8(p), pattern_32(q)}` (R94). -/
def publishWord (polarity : BitVec 8) (magnitude : BitVec 32) : PublishWord := polarity ++ magnitude

/-- The response of `RDPOL`: `pattern_32(sext_32(polarity))` (R95, D37). -/
def polarityResponse (polarity : BitVec 8) : ResponseWord := BitVec.ofInt 32 polarity.toInt

/-- The response of `RDFIRED` (R95). -/
def firedResponse (fired : Bool) : ResponseWord := if fired then 1 else 0

/-! ## Stage numbers, "where a number is needed for display" (R36, R40); no rule depends on them -/

/-- The number of a button stage (R36). -/
def ButtonStage.number : ButtonStage → Nat
  | .idle => 0
  | .held => 1
  | .repeating => 2

/-- The number of a display stage (R40). -/
def DisplayStage.number : DisplayStage → Nat
  | .idle => 0
  | .positionRow => 1
  | .positionColumn => 2
  | .emit => 3

end Sys2Proof.Machine
end

