-- ==== Sys2Proof/Machine/Flags.lean ====
section
/-! DEFINITION. The flags of R32 and how each is computed: `prev_gate` and the transition, `polarity`, `dirty`,
`fired[i]`. (`faulted` is written by `raise` and `resetBlock` of Machine/Ops.lean.) -/

namespace Sys2Proof.Machine

/-- Step 4's test (R114): the gate level differs from the last one observed. -/
def isTransition (prevGate gate : Bool) : Bool := gate != prevGate

/-- `prev_gate` after a sample (R114). -/
def nextPrevGate (prevGate gate : Bool) : Bool := if isTransition prevGate gate then gate else prevGate

/-- The polarity of a publish (R118): `+1` if `positive_sum > negative_sum`, else `-1`. -/
def polarityOf (ps ns : Int) : Int := if ps > ns then 1 else -1

/-- Steps 1 to 4 of a sample (R111 to R114). -/
def accumulate (c : Config) (d : DemodulationState) (raw : Int) (gate : Bool) : Accumulated :=
  let value := centred c raw
  { acc := if gate then d.signedAccumulator.toInt + value else d.signedAccumulator.toInt - value
    ps := if gate then d.positiveSum.toInt + value else d.positiveSum.toInt
    ns := if gate then d.negativeSum.toInt else d.negativeSum.toInt + value
    sc := d.sampleCount.toNat + 1
    gc := if isTransition d.prevGate gate then d.gateCount.toNat + 1 else d.gateCount.toNat
    pg := nextPrevGate d.prevGate gate }

/-- The publish test of R115 with the guard of R119. -/
def publishDue (c : Config) (a : Accumulated) : Bool := decide (a.gc ≥ c.cycleThreshold) && decide (a.sc ≠ 0)

/-- `dirty <- true` (R155). -/
def markDirty (s : State) : State := s.setDisp { s.disp with dirty := true }

/-- The fired flags after the events of a tick (R186): an event sets its flag, nothing else changes one. -/
def surfaceEvents (fired : Five Bool) (event : Fin 5 → Bool) : Five Bool := Five.ofFn fun i => fired.get i || event i

/-- `fired[i] <- false` (R190). -/
def clearFired (s : State) (i : Fin 5) : State := s.setFired (s.fired.set i false)

end Sys2Proof.Machine
end

