-- ==== Sys2Proof/Machine/Demodulator.lean ====
section
/-! DEFINITION. The Synchronous Demodulator: the publish step and the meanings of `SAMPLE`, `RDMAG`, `RDPOL`. -/

namespace Sys2Proof.Machine

/-- The zeroing of R120: `prev_gate` keeps its value. -/
def zeroWindow (d : DemodulationState) : DemodulationState := ⟨0, 0, 0, 0, 0, d.prevGate⟩

/-- The second step of a publish (R241), all of it after `magnitude <- q`: `polarity <- p`, the publish word, the zeroing. -/
def finishPublish (p : BitVec 8) (s : State) : State :=
  (((s.setPublished { s.published with polarity := p }).emitPublish (publishWord p s.published.magnitude)).setDemod
    (zeroWindow s.demod)).setPublishHalf none

/-- The first step of a publish: `magnitude <- q`, with the registers as steps 1 to 4 of the sample leave them. -/
def beginPublish (a : Accumulated) (q : Int) (s : State) : State :=
  (s.setDemod a.registers).setPublished { s.published with magnitude := BitVec.ofInt 32 q }

/-- Publish `q` and `p` (R121): one step with `PUBLISH_ATOMIC = true`, else the first of two (R241). -/
def publish (a : Accumulated) (q : Int) (s : State) : State :=
  let p := BitVec.ofInt 8 (polarityOf a.ps a.ns)
  if s.cfg.publishAtomic then finishPublish p (beginPublish a q s) else (beginPublish a q s).setPublishHalf (some p)

/-- `SAMPLE raw, gate` on an unfaulted block (R116). -/
def sampleEffect (raw : Int) (gate : Bool) (s : State) : State :=
  let a := accumulate s.cfg s.demod raw gate
  match a.overflow with
  | some reg => raise (.arithRange reg) s
  | none =>
    if publishDue s.cfg a then
      let q := tdiv a.acc a.sc
      if fitsI32 q then publish a q s else raise (.arithRange .magnitude) s
    else s.setDemod a.registers

/-- `SAMPLE raw, gate` (R116). -/
def execSample (raw : Int) (gate : Bool) (s : State) : Result := .next (unlessFaulted s (sampleEffect raw gate))

/-- `RDMAG` (R125). -/
def execRdmag (s : State) : Result := .next (hostEvent s fun s => s.respond s.published.magnitude)

/-- `RDPOL` (R126). -/
def execRdpol (s : State) : Result := .next (hostEvent s fun s => s.respond (polarityResponse s.published.polarity))

end Sys2Proof.Machine
end

