-- ==== Sys2Proof/Machine/Debounce.lean ====
section
/-! DEFINITION. The Debounce/Repeat Engine: the debounce step of `TICK`, and the meaning of `RDFIRED`. -/

namespace Sys2Proof.Machine

/-- The threshold of a stage (R183 to R185). -/
def stageThreshold (c : Config) : ButtonStage → Nat
  | .idle => c.onThreshold
  | .held => c.repeatDelay
  | .repeating => c.repeatPeriod

/-- The stage an event of a stage leads to (R183 to R185). -/
def stageAfterEvent : ButtonStage → ButtonStage
  | .idle => .held
  | .held => .repeating
  | .repeating => .repeating

/-- Does a button emit an edge or repeat event in this tick (R183 to R186)? The increment comes before the comparison. -/
def buttonEvent (c : Config) (held : Bool) (b : ButtonState) : Bool :=
  held && decide (b.holdTicks.toNat + 1 ≥ stageThreshold c b.stage)

/-- `hold_ticks` after a tick that finds the button released (R183, R188). -/
def holdAfterRelease (c : Config) (b : ButtonState) : BitVec 32 :=
  match b.stage with
  | .idle => 0
  | .held => if c.releaseKeepsHold then b.holdTicks else 0
  | .repeating => if c.releaseKeepsHold then b.holdTicks else 0

/-- `btn[i]` after a tick (R187). -/
def buttonAdvance (c : Config) (held : Bool) (b : ButtonState) : ButtonState :=
  if held then
    if buttonEvent c held b then { b with holdTicks := 0, stage := stageAfterEvent b.stage }
    else { b with holdTicks := BitVec.ofNat 32 (b.holdTicks.toNat + 1) }
  else { b with holdTicks := holdAfterRelease c b, stage := .idle }

/-- `debounce_advance(mask)` (R187): the five buttons independently. -/
def debounceAdvance (mask : BitVec 5) (s : State) : State :=
  (s.setButtons (Five.ofFn fun i => buttonAdvance s.cfg (isHeld mask i) (s.btn.get i))).setFired
    (surfaceEvents s.fired fun i => buttonEvent s.cfg (isHeld mask i) (s.btn.get i))

/-- `RDFIRED idx` on an unfaulted block with no text open (R190): the read and the clear are one step. -/
def rdfiredEffect (idx : Nat) (s : State) : State :=
  if h : idx < 5 then clearFired (s.respond (firedResponse (s.fired.get ⟨idx, h⟩))) ⟨idx, h⟩
  else raise (.badIndex idx) s

/-- `RDFIRED idx` (R190). -/
def execRdfired (idx : Nat) (s : State) : Result := .next (hostEvent s (rdfiredEffect idx))

end Sys2Proof.Machine
end

