-- ==== Sys2Proof/Machine/Display.lean ====
section
/-! DEFINITION. The Display Multiplexer: the meanings of `SETTEXT` and `TEXTDATA`, and the display step of `TICK`. -/

namespace Sys2Proof.Machine

/-- `SETTEXT row, col, len` with all its bytes (R152): a no-op out of range (R153), else the copy and then `dirty`
(R154, R155). -/
def performText (row col : Nat) (bytes : List Byte) (s : State) : State :=
  if row ≥ s.cfg.height ∨ col ≥ s.cfg.width then s
  else markDirty (s.setMem (Memory.copyText s.cfg s.mem (linearOffset s.cfg row col) bytes))

/-- `SETTEXT row, col, len`, the header word (R92, R101): complete when `len = 0`, else `len` data words are owed. -/
def execSettext (row col len : Nat) (s : State) : Result :=
  .next (hostEvent s fun s => if len = 0 then performText row col [] s else s.setAssembly ⟨row, col, len, []⟩)

/-- `TEXTDATA byte` on an unfaulted block (R101, R165). -/
def textdataEffect (byte : Byte) (s : State) : State :=
  match s.text.need with
  | 0 => raiseBadSequence s
  | 1 => performText s.text.row s.text.col (s.text.bytes ++ [byte]) (s.setAssembly .none)
  | need + 2 => s.setAssembly { s.text with need := need + 1, bytes := s.text.bytes ++ [byte] }

/-- `TEXTDATA byte` (R165). -/
def execTextdata (byte : Byte) (s : State) : Result := .next (unlessFaulted s (textdataEffect byte))

/-- Stage `Idle` (R157). -/
def displayIdle (s : State) : State := if s.disp.dirty then s.setDisp ⟨0, .positionRow, false⟩ else s

/-- Stage `PositionRow` (R158). -/
def displayPositionRow (s : State) : State :=
  (s.emitDisplay (setCursorWord s.cfg s.disp.cursor.toNat)).setDisp { s.disp with stage := .positionColumn }

/-- Stage `PositionColumn` (R159). -/
def displayPositionColumn (s : State) : State :=
  (s.emitDisplay (positionWord s.cfg s.disp.cursor.toNat)).setDisp { s.disp with stage := .emit }

/-- `disp.cursor` and `disp.stage` after `Emit` (R160). -/
def afterEmit (c : Config) (d : DisplayRegs) : DisplayRegs :=
  let next := d.cursor.toNat + 1
  if next = c.cells then { d with cursor := 0, stage := .idle }
  else if next % c.width = 0 then { d with cursor := BitVec.ofNat 16 next, stage := .positionRow }
  else { d with cursor := BitVec.ofNat 16 next }

/-- Stage `Emit` (R160). -/
def displayEmit (s : State) : State :=
  (s.emitDisplay (dataWord (s.cell s.disp.cursor.toNat))).setDisp (afterEmit s.cfg s.disp)

/-- A step that addresses the cell at `disp.cursor`: there is none at or past `W×H` (R60, R64). -/
def atCursor (s : State) (effect : State → State) : Result :=
  if s.disp.cursor.toNat < s.cfg.cells then .next (effect s) else .fault (.noSuchCell s.disp.cursor.toNat)

/-- `display_advance()` (R156): exactly one step of the table. -/
def displayAdvance (s : State) : Result :=
  match s.disp.stage with
  | .idle => .next (displayIdle s)
  | .positionRow => atCursor s displayPositionRow
  | .positionColumn => atCursor s displayPositionColumn
  | .emit => atCursor s displayEmit

end Sys2Proof.Machine
end

