-- ==== Sys2Proof/Machine/Dispatcher.lean ====
section
/-! DEFINITION. The Real-Time Dispatcher: the meaning of `TICK` (R140). -/

namespace Sys2Proof.Machine

/-- `TICK mask` on an unfaulted block (R140, R141): the display step, then the debounce step. -/
def tickEffect (mask : BitVec 5) (s : State) : Result :=
  match displayAdvance s with
  | .next t => .next (debounceAdvance mask t)
  | .fault f => .fault f
  | .refused r => .refused r

/-- `TICK mask` (R140). -/
def execTick (mask : BitVec 5) (s : State) : Result := if s.faulted then .next s else tickEffect mask s

end Sys2Proof.Machine
end

