-- ==== Sys2Proof/Machine/Reset.lean ====
section
/-! DEFINITION. The meaning of `RESET` (R230). -/

namespace Sys2Proof.Machine

/-- `RESET`: performed in any state, a faulted one too. -/
def execReset (s : State) : Result := .next (resetBlock s)

end Sys2Proof.Machine
end

