-- ==== Sys2Proof/Machine/Dispatch.lean ====
section
/-! DEFINITION. One arm per event, each a call of its meaning. -/

namespace Sys2Proof.Machine

def exec (i : Instr) (s : State) : Host.Outcome State Fault Refusal :=
  match i with
  | .reset => Sys2Proof.Machine.execReset s
  | .sample raw gate => Sys2Proof.Machine.execSample raw gate s
  | .tick mask => Sys2Proof.Machine.execTick mask s
  | .settext row col len => Sys2Proof.Machine.execSettext row col len s
  | .textdata byte => Sys2Proof.Machine.execTextdata byte s
  | .rdmag => Sys2Proof.Machine.execRdmag s
  | .rdpol => Sys2Proof.Machine.execRdpol s
  | .rdfired idx => Sys2Proof.Machine.execRdfired idx s

end Sys2Proof.Machine
end

