-- ==== Sys2Proof/Machine/Fetch.lean ====
section
/-! DEFINITION. How an event reaches the block: the ports in their order of priority (R97), the word each delivers, and
what a presented word does (R91, R92, R101, R241). -/

namespace Sys2Proof.Machine

/-- The next event of one instant: its port, its word in the canonical spelling of R81, and what the instant still holds.
The order is `RESET`, `SAMPLE`, `TICK`, host (R97, R210). -/
def PortInputs.take (p : PortInputs) : Option (InPort × EventWord × PortInputs) :=
  if p.reset then some (.reset, encode .reset, { p with reset := false })
  else
    match p.sample with
    | some pins => some (.sample, encode (.sample pins.raw.toInt pins.gate), { p with sample := none })
    | none =>
      match p.tick with
      | some mask => some (.tick, encode (.tick mask), { p with tick := none })
      | none =>
        match p.host with
        | some e => some (.host, e, { p with host := none })
        | none => none

/-- The instant at which one word stands alone at its port: an event of another agent than the host at its own port,
every other word, an illegal one too, at the host port (R80, R201). -/
def PortInputs.ofWord (e : EventWord) : PortInputs :=
  match decode e with
  | .ok .reset => { reset := true }
  | .ok (.sample raw gate) => { sample := some ⟨BitVec.ofInt 32 raw, gate⟩ }
  | .ok (.tick mask) => { tick := some mask }
  | .ok (.settext _ _ _) => { host := some e }
  | .ok (.textdata _) => { host := some e }
  | .ok .rdmag => { host := some e }
  | .ok .rdpol => { host := some e }
  | .ok (.rdfired _) => { host := some e }
  | .error _ => { host := some e }

/-- What the trace presents next. -/
inductive Fetched where
  /-- No port asserts `valid`. -/
  | nothing (rest : List PortInputs)
  /-- A word, the port it stands at, and the trace after it. -/
  | word (port : InPort) (e : EventWord) (rest : List PortInputs)
deriving DecidableEq, Repr

/-- The next word of the trace (R97, R98): an instant is left when every port of it has been served. -/
def fetch : List PortInputs → Fetched
  | [] => .nothing []
  | p :: rest =>
    match p.take with
    | none => .nothing rest
    | some (port, e, p') => .word port e (if p' = {} then rest else p' :: rest)

/-- Is a publish of R241 half done? A fault stops the block where it stands (R200, log 8). -/
def publishOpen (s : State) : Bool := s.publishHalf.isSome && !s.faulted

/-- The second step of a half-done publish, if one is open (R241). -/
def settlePublish (s : State) : State :=
  match s.publishHalf with
  | some p => unlessFaulted s (finishPublish p)
  | none => s

/-- May this word's event fall between the two steps of a publish (R241)? Only the host's may; a word that spells no event
stands at the host port. -/
def fallsBetween (e : EventWord) : Bool :=
  match decode e with
  | .ok i => i.agent == .host
  | .error _ => true

/-- A `SAMPLE` or `TICK` word on the host port while data words are owed (R92: "a host word with any other `op`"; with none
owed it is "a complete event", R101; DEDUCED, log 6). -/
def breaksText (port : InPort) (i : Instr) (s : State) : Bool :=
  port == .host && (i.agent == .sampling || i.agent == .timer) && s.text.need != 0

/-- A word presented at a port (R101, R222): `IllegalWord` is checked first, `BadSequence` next, and the event's own
faults last. -/
def perform (port : InPort) (e : EventWord) (s : State) : Result :=
  match decode e with
  | .error _ => .next (raise .illegalWord s)
  | .ok i => if breaksText port i s then .next (raiseBadSequence s) else exec i s

/-- A trace of events, each alone in its instant (R98). -/
def traceInputs (trace : List Instr) : List PortInputs := trace.map fun i => PortInputs.ofWord (encode i)

end Sys2Proof.Machine
end

