-- ==== Sys2Proof/Machine/Step.lean ====
section
/-! DEFINITION. One step of the machine: the next event of the trace is performed (R12, R71). -/

namespace Sys2Proof.Machine

/-- One event, whole. Where no port asserts `valid`, or the next event may not fall between the two steps of a half-done
publish, the step is that publish's second one (R241; log 9); with none open, a step with nothing to perform changes nothing
(DESIGN CHOICE, log 4). -/
def step (s : State) : Host.Outcome State Fault Refusal :=
  match fetch s.inputs with
  | .nothing rest => .next ((settlePublish s).setInputs rest)
  | .word port e rest =>
    if publishOpen s && !fallsBetween e then .next (settlePublish s)
    else perform port e (s.setInputs rest)

/-- `s` with the word `w` of `nbits` bits alone in the next instant at its port. A half-done publish that the word's event
may not fall into is settled, so that the very next step performs the word. -/
def State.withFetchWord (s : State) (nbits w : Nat) : State :=
  let e : EventWord := BitVec.ofNat 40 (w % 2 ^ nbits)
  let t := if fallsBetween e then s else settlePublish s
  t.setInputs (PortInputs.ofWord e :: s.inputs)

end Sys2Proof.Machine
end

