-- ==== Sys2Proof/Safety.lean ====
section
/-! DEFINITION. The terms claims are made in: what a good run is (R252), a sequence of events performed one after another,
what an event leaves alone, the invariants of R26, R31, R42, R127, R164 and R192, and the content of a display pass. -/

namespace Sys2Proof.Machine

/-! ## Runs -/

/-- A run is good if `faulted` is `false` at its end (R252). -/
abbrev State.good (s : State) : Prop := s.faulted = false

/-- The host port can take a complete event: no fault, and no data words owed (R101). -/
abbrev State.hostReady (s : State) : Prop := s.faulted = false ∧ s.text.need = 0

/-- The display step of the next `TICK` addresses an existing cell, or none (R42, R64). -/
abbrev State.cursorReady (s : State) : Prop := s.disp.stage = .idle ∨ s.disp.cursor.toNat < s.cfg.cells

/-- A sequence of events, each performed in the state the one before it leaves (R12, R71). -/
def performAll : List Instr → State → Result
  | [], s => .next s
  | i :: rest, s =>
    match exec i s with
    | .next t => performAll rest t
    | .fault f => .fault f
    | .refused r => .refused r

/-- The result with `g` applied to its next state. -/
def Result.map (g : State → State) : Result → Result
  | .next t => .next (g t)
  | .fault f => .fault f
  | .refused r => .refused r

/-! ## What an event leaves alone (R66 to R69) -/

/-- DemodulationState and PublishedMeasurement, the part S of R70. -/
def KeepsMeasurement (s t : State) : Prop :=
  t.demod = s.demod ∧ t.published = s.published ∧ t.publishHalf = s.publishHalf

/-- ButtonState and the fired flags. -/
def KeepsButtons (s t : State) : Prop := t.btn = s.btn ∧ t.fired = s.fired

/-- Every byte of the frame buffer, read one by one. -/
def KeepsBuffer (s t : State) : Prop := ∀ k, t.cell k = s.cell k

/-- The fault port. -/
def KeepsFault (s t : State) : Prop := t.faulted = s.faulted ∧ t.faultCode = s.faultCode

/-- What has been sent on the display port and the publish port, and the responses. -/
def KeepsOutputs (s t : State) : Prop :=
  t.displayOut = s.displayOut ∧ t.publishOut = s.publishOut ∧ t.responses = s.responses

/-- The constants, and the events still to come. -/
def KeepsSurroundings (s t : State) : Prop := t.cfg = s.cfg ∧ t.inputs = s.inputs

/-- Buttons, display registers, frame buffer and text: the part T of R70. -/
def KeepsPanel (s t : State) : Prop := KeepsButtons s t ∧ t.disp = s.disp ∧ KeepsBuffer s t ∧ t.text = s.text

/-- The state after `raise` with this code (R200): nothing else differs. -/
def FaultedWith (code : BitVec 8) (s t : State) : Prop :=
  t.faulted = true ∧ t.faultCode = code ∧ KeepsMeasurement s t ∧ KeepsPanel s t ∧ KeepsOutputs s t ∧
    KeepsSurroundings s t

/-- The state after `BadSequence` (R202): the partly received text is discarded too. -/
def FaultedInText (s t : State) : Prop :=
  t.faulted = true ∧ t.faultCode = 0x02 ∧ t.text.need = 0 ∧ KeepsMeasurement s t ∧ KeepsButtons s t ∧
    t.disp = s.disp ∧ KeepsBuffer s t ∧ KeepsOutputs s t ∧ KeepsSurroundings s t

/-- The same machine with other press counts (R35). -/
def State.withPressCounts (counts : Five (BitVec 32)) (s : State) : State :=
  s.setButtons (Five.ofFn fun i => { s.btn.get i with pressCount := counts.get i })

/-- The same machine with another cursor and display stage. -/
def State.withPosition (cursor : BitVec 16) (stage : DisplayStage) (s : State) : State :=
  s.setDisp { s.disp with cursor := cursor, stage := stage }

/-! ## Invariants -/

/-- R26: (a) the accumulator is the difference of the sums; (b) the window has not reached its threshold, once no publish
is half done; (c) no more transitions than samples; (d) an empty window has zero sums. -/
def DemodInv (s : State) : Prop :=
  s.demod.signedAccumulator.toInt = s.demod.positiveSum.toInt - s.demod.negativeSum.toInt ∧
  (s.publishHalf = none → s.demod.gateCount.toNat < s.cfg.cycleThreshold) ∧
  s.demod.gateCount.toNat ≤ s.demod.sampleCount.toNat ∧
  (s.demod.sampleCount = 0 →
    s.demod.signedAccumulator = 0 ∧ s.demod.positiveSum = 0 ∧ s.demod.negativeSum = 0)

/-- R127: no sum exceeds `sample_count` times the largest `|value|`, `2^32 - 1`. -/
def SumBounds (s : State) : Prop :=
  |s.demod.signedAccumulator.toInt| ≤ s.demod.sampleCount.toNat * (2 ^ 32 - 1) ∧
  |s.demod.positiveSum.toInt| ≤ s.demod.sampleCount.toNat * (2 ^ 32 - 1) ∧
  |s.demod.negativeSum.toInt| ≤ s.demod.sampleCount.toNat * (2 ^ 32 - 1)

/-- R42, R164: the cursor addresses a cell, the first of a row in the two positioning stages, the first of all in `Idle`. -/
def DisplayInv (s : State) : Prop :=
  s.disp.cursor.toNat < s.cfg.cells ∧
  (s.disp.stage = .positionRow ∨ s.disp.stage = .positionColumn → s.disp.cursor.toNat % s.cfg.width = 0) ∧
  (s.disp.stage = .idle → s.disp.cursor = 0)

/-- R192. -/
def HoldInv (s : State) : Prop :=
  ∀ i, (s.btn.get i).holdTicks.toNat < max (max s.cfg.onThreshold s.cfg.repeatDelay) s.cfg.repeatPeriod

/-- R31, R205: `fault_code` is 0 exactly while `faulted` is `false`, and else one of the codes. -/
def FaultInv (s : State) : Prop :=
  (s.faulted = false ↔ s.faultCode = 0) ∧
  s.faultCode ∈ ([0x00, 0x01, 0x02, 0x03, 0x10, 0x11, 0x12, 0x13, 0x14] : List (BitVec 8))

/-- R92, R101: no byte is kept when none is owed, and a text is never longer than a `len` field can say. -/
def TextInv (s : State) : Prop :=
  (s.text.need = 0 → s.text = TextAssembly.none) ∧ s.text.bytes.length + s.text.need ≤ 255

/-- The canonical form of the frame buffer. -/
abbrev MemoryInv (s : State) : Prop := Memory.wf s.cfg s.mem = true

/-- R241: a publish is half done only with `PUBLISH_ATOMIC = false`, and the polarity it owes is `+1` or `-1`. -/
def PublishInv (s : State) : Prop :=
  ∀ p, s.publishHalf = some p → s.cfg.publishAtomic = false ∧ (p = 1 ∨ p = -1)

/-! ## Display passes and button events -/

/-- The display words of row `r` of a pass (R162). -/
def rowWords (s : State) (r : Nat) : List DisplayWord :=
  displayWord 0x01 r 0 0 :: displayWord 0x02 r 0 0 ::
    (List.range s.cfg.width).map fun c => dataWord (s.cell (r * s.cfg.width + c))

/-- The display words of a pass over the buffer as it is in `s` (R162). -/
def passWords (s : State) : List DisplayWord := (List.range s.cfg.height).flatMap (rowWords s)

/-- Is tick `n` of a continuous hold, counted from 1, an event tick (R189)? -/
def isEventTick (c : Config) (n : Nat) : Bool :=
  n == c.onThreshold ||
    (decide (c.onThreshold + c.repeatDelay ≤ n) && (n - (c.onThreshold + c.repeatDelay)) % c.repeatPeriod == 0)

end Sys2Proof.Machine
end

