-- ==== Sys2Proof/Certificates/Slice0/Obligations.lean ====
section
/-! DEFINITION. The statements for the provers. Each docstring names the rule of spec/ it formalises. -/

open Sys2Proof Sys2Proof.Machine

/-! ## Encoding -/

/-- R100, R101: every well-formed event is read back from its word, from its bytes at the head of any byte stream, and from
its opcode-table word. -/
def Obligations.EncodedEventDecodesToItself : Prop :=
  ∀ i : Instr, i.wellFormed = true →
    decode (encode i) = .ok i ∧
    (∀ rest, decodeBytes (encodeBytes i ++ rest) = .ok (i, rest)) ∧
    decodeTableWord 40 (encode i).toNat = some i

/-- R91: "every 40-bit word is either exactly one event or illegal"; the converse of the round trip. -/
def Obligations.DecodedWordIsItsEventsEncoding : Prop :=
  ∀ (e : EventWord) (i : Instr), decode e = .ok i → i.wellFormed = true ∧ encode i = e

/-- The opcode table: a word is a row's exactly when it decodes to an event with the row's mnemonic, so no word is two rows'. -/
def Obligations.OpcodeTableRowsSpellTheirEvents : Prop :=
  ∀ (e : EventWord) (row : OpcodeRow), row ∈ opcodeTable →
    (row.spells e = true ↔ ∃ i, decode e = .ok i ∧ i.mnemonic = row.mnemonic)

/-- R91, R201: which words spell no event, and that presenting one raises `IllegalWord` and does nothing else. That such a
word falls between the two steps of a publish (log 9), that the publish then stays half done (log 8) and that an open text
is kept (log 10) are the model's choices. -/
def Obligations.IllegalWordsAreRejectedAndRaise : Prop :=
  (∀ e : EventWord, decode e = .error .unassignedOp ↔
    field e 39 32 ∉ [0x01, 0x10, 0x11, 0x20, 0x30, 0x31, 0x40, 0x41, 0x42]) ∧
  (∀ e : EventWord, decode e = .error .reservedBits ↔
    (field e 39 32 ∈ [0x01, 0x40, 0x41] ∧ field e 31 0 ≠ 0) ∨
    (field e 39 32 = 0x20 ∧ field e 31 5 ≠ 0) ∨
    (field e 39 32 = 0x30 ∧ field e 31 24 ≠ 0) ∨
    (field e 39 32 = 0x31 ∧ field e 31 8 ≠ 0) ∨
    (field e 39 32 = 0x42 ∧ field e 31 3 ≠ 0)) ∧
  (∀ (s : State) (port : InPort) (e : EventWord) (rest : List PortInputs),
    s.good → fetch s.inputs = .word port e rest → (∀ i, decode e ≠ .ok i) →
    ∃ t, step s = .next t ∧ FaultedWith 0x01 (s.setInputs rest) t)

/-- R84 to R90: the spec's own examples of event words. -/
def Obligations.EventWordsOfTheSpecDecode : Prop :=
  decode 0x0100000000#40 = .ok .reset ∧
  decode 0x1100000264#40 = .ok (.sample 612 true) ∧
  decode 0x10FFFFFFFD#40 = .ok (.sample (-3) false) ∧
  decode 0x200000001E#40 = .ok (.tick 0b11110#5) ∧
  decode 0x3000010203#40 = .ok (.settext 1 2 3) ∧
  decode 0x3100000041#40 = .ok (.textdata 0x41#8) ∧
  decode 0x4000000000#40 = .ok .rdmag ∧
  decode 0x4100000000#40 = .ok .rdpol ∧
  decode 0x4200000003#40 = .ok (.rdfired 3) ∧
  decode 0x4200000007#40 = .ok (.rdfired 7) ∧
  decode 0x0000000000#40 = .error .unassignedOp ∧
  decode 0x2000000020#40 = .error .reservedBits

/-- R96: "the most significant byte goes first", for a 40-bit word and for a 32-bit word. -/
def Obligations.WordsAreSerialisedMostSignificantByteFirst : Prop :=
  (∀ e : BitVec 40, wordBytes 5 e.toNat =
    [e.extractLsb' 32 8, e.extractLsb' 24 8, e.extractLsb' 16 8, e.extractLsb' 8 8, e.extractLsb' 0 8]) ∧
  (∀ w : BitVec 32, wordBytes 4 w.toNat =
    [w.extractLsb' 24 8, w.extractLsb' 16 8, w.extractLsb' 8 8, w.extractLsb' 0 8])

/-- R93, R94: where the parts of a display word and of a publish word stand. -/
def Obligations.OutputWordsCarryTheirFields : Prop :=
  (∀ kind row col byte : Nat, kind < 256 → row < 256 → col < 256 → byte < 256 →
    ((displayWord kind row col byte).extractLsb' 24 8).toNat = kind ∧
    ((displayWord kind row col byte).extractLsb' 16 8).toNat = row ∧
    ((displayWord kind row col byte).extractLsb' 8 8).toNat = col ∧
    ((displayWord kind row col byte).extractLsb' 0 8).toNat = byte) ∧
  (∀ (p : BitVec 8) (q : BitVec 32),
    (publishWord p q).extractLsb' 32 8 = p ∧ (publishWord p q).extractLsb' 0 32 = q)

/-! ## A step, the ports, the trace -/

/-- A step performs the event that the next word decodes to, on the state with that word taken from its port, unless a
publish is half done and the event is no host event (R241), or a `SAMPLE` or `TICK` word breaks a text on the host port
(R92; log 6). -/
def Obligations.StepPerformsTheDecodedEvent : Prop :=
  ∀ (s : State) (port : InPort) (e : EventWord) (rest : List PortInputs) (i : Instr),
    fetch s.inputs = .word port e rest → decode e = .ok i →
    (publishOpen s = false ∨ i.agent = .host) →
    (port ≠ .host ∨ i.agent = .host ∨ i.agent = .reset ∨ s.text.need = 0) →
    step s = exec i (s.setInputs rest)

/-- A word placed at its port by `withFetchWord` is the very next event performed, on the state as it was, also while a
text is open. -/
def Obligations.PlacedWordIsPerformedNext : Prop :=
  ∀ (s : State) (w : Nat) (i : Instr), w < 2 ^ 40 → s.publishHalf = none → decode (BitVec.ofNat 40 w) = .ok i →
    step (s.withFetchWord 40 w) = exec i s

/-- R97, R210: the ports of one instant are served in the order `RESET`, `SAMPLE`, `TICK`, host, one event at a time, each
word being the port's canonical spelling (R81), and the instant is left when its last port has been served. -/
def Obligations.PortsAreServedInPriorityOrder : Prop :=
  ∀ (p : PortInputs) (later : List PortInputs),
    let remaining := fun q : PortInputs => if q = {} then later else q :: later
    (p.reset = true →
      fetch (p :: later) = .word .reset 0x0100000000#40 (remaining { p with reset := false })) ∧
    (∀ pins, p.reset = false → p.sample = some pins → ∃ e,
      fetch (p :: later) = .word .sample e (remaining { p with sample := none }) ∧
      decode e = .ok (.sample pins.raw.toInt pins.gate)) ∧
    (∀ mask, p.reset = false → p.sample = none → p.tick = some mask → ∃ e,
      fetch (p :: later) = .word .tick e (remaining { p with tick := none }) ∧ decode e = .ok (.tick mask)) ∧
    (∀ e, p.reset = false → p.sample = none → p.tick = none → p.host = some e →
      fetch (p :: later) = .word .host e later)

/-- No port asserts `valid` exactly where the trace is empty or its next instant is; with no publish half done, a step there
takes that one empty instant, if there is one, and changes nothing (model's choice, log 4). -/
def Obligations.StepWithoutAnEventChangesNothing : Prop :=
  (∀ is rest : List PortInputs, fetch is = .nothing rest ↔ (is = [] ∧ rest = []) ∨ is = {} :: rest) ∧
  (∀ (s : State) (rest : List PortInputs), fetch s.inputs = .nothing rest → publishOpen s = false →
    step s = .next (s.setInputs rest))

/-- R241, the second step of a publish with `PUBLISH_ATOMIC = false`: `polarity <- p`, the publish word and the zeroing,
before any event that is not the host's; the event itself waits. -/
def Obligations.HalfDonePublishIsFinishedFirst : Prop :=
  ∀ (s : State) (p : BitVec 8), s.good → s.publishHalf = some p →
    ((∃ rest, fetch s.inputs = .nothing rest) ∨
      (∃ port e rest i, fetch s.inputs = .word port e rest ∧ decode e = .ok i ∧ i.agent ≠ .host)) →
    ∃ t, step s = .next t ∧
      t.published.magnitude = s.published.magnitude ∧ t.published.polarity = p ∧
      t.publishOut = s.publishOut ++ [publishWord p s.published.magnitude] ∧
      t.demod.signedAccumulator = 0 ∧ t.demod.positiveSum = 0 ∧ t.demod.negativeSum = 0 ∧
      t.demod.sampleCount = 0 ∧ t.demod.gateCount = 0 ∧ t.demod.prevGate = s.demod.prevGate ∧
      t.publishHalf = none ∧ KeepsPanel s t ∧ KeepsFault s t ∧ t.cfg = s.cfg ∧
      t.displayOut = s.displayOut ∧ t.responses = s.responses ∧
      (∀ port e rest, fetch s.inputs = .word port e rest → t.inputs = s.inputs)

/-- R5, R30: no step changes a configuration constant. -/
def Obligations.NoStepChangesTheConfiguration : Prop :=
  ∀ s t : State, step s = .next t → t.cfg = s.cfg

/-- R12: a step sends at most one word on each output port and gives at most one response, and takes back none. -/
def Obligations.StepSendsAtMostOneWordPerPort : Prop :=
  ∀ s t : State, step s = .next t →
    (∃ ws, t.displayOut = s.displayOut ++ ws ∧ ws.length ≤ 1) ∧
    (∃ ws, t.publishOut = s.publishOut ++ ws ∧ ws.length ≤ 1) ∧
    (∃ ws, t.responses = s.responses ++ ws ∧ ws.length ≤ 1)

/-! ## Reset -/

/-- R230, R45: what `RESET` leaves, from any state, a faulted one too. -/
def Obligations.ResetSetsEveryRegister : Prop :=
  ∀ s : State, ∃ t, exec .reset s = .next t ∧
    t.demod.gateCount = 0 ∧ t.demod.sampleCount = 0 ∧ t.demod.signedAccumulator = 0 ∧
    t.demod.positiveSum = 0 ∧ t.demod.negativeSum = 0 ∧ t.demod.prevGate = false ∧
    t.published.magnitude.toInt = s.cfg.magReset ∧ t.published.polarity.toInt = s.cfg.polReset ∧
    (∀ i, (t.btn.get i).holdTicks = 0 ∧ (t.btn.get i).pressCount = 0 ∧ (t.btn.get i).stage = .idle ∧
      t.fired.get i = false) ∧
    (∀ k, (h : k < s.cfg.fbReset.length) → t.cell k = s.cfg.fbReset[k]) ∧
    t.disp.cursor = 0 ∧ t.disp.stage = .idle ∧ t.disp.dirty = false ∧
    t.faulted = false ∧ t.faultCode = 0 ∧ t.text.need = 0 ∧
    KeepsOutputs s t ∧ KeepsSurroundings s t

/-- R232: the state after `RESET`, from any state, and `State.reset` satisfy every invariant, and no publish is half done
there (log 8). -/
def Obligations.ResetStateSatisfiesTheInvariants : Prop :=
  (∀ s t, exec .reset s = .next t →
    DemodInv t ∧ SumBounds t ∧ DisplayInv t ∧ HoldInv t ∧ FaultInv t ∧ TextInv t ∧ MemoryInv t ∧
    t.publishHalf = none) ∧
  (DemodInv State.reset ∧ SumBounds State.reset ∧ DisplayInv State.reset ∧ HoldInv State.reset ∧
    FaultInv State.reset ∧ TextInv State.reset ∧ MemoryInv State.reset ∧ State.reset.publishHalf = none)

/-! ## The Synchronous Demodulator -/

/-- R116: the whole of `SAMPLE`, its five steps and its checks in order; a faulted block ignores it. The publish itself is
that of `PUBLISH_ATOMIC = true`; `NonAtomicSampleIsTheFirstStepOfAPublish` is about the other value. -/
def Obligations.SampleFollowsItsFiveSteps : Prop :=
  ∀ (s : State) (raw : Int) (gate : Bool) (value acc ps ns q : Int) (sc gc : Nat),
    value = raw - s.cfg.baselineOffset →
    acc = s.demod.signedAccumulator.toInt + (if gate then value else -value) →
    ps = s.demod.positiveSum.toInt + (if gate then value else 0) →
    ns = s.demod.negativeSum.toInt + (if gate then 0 else value) →
    sc = s.demod.sampleCount.toNat + 1 →
    gc = s.demod.gateCount.toNat + (if gate = s.demod.prevGate then 0 else 1) →
    q = Int.tdiv acc sc →
    (s.faulted = true → exec (.sample raw gate) s = .next s) ∧
    (s.good → ∃ t, exec (.sample raw gate) s = .next t ∧
      if ¬ (-2 ^ 63 ≤ acc ∧ acc ≤ 2 ^ 63 - 1) then FaultedWith 0x10 s t
      else if ¬ (-2 ^ 63 ≤ ps ∧ ps ≤ 2 ^ 63 - 1) then FaultedWith 0x11 s t
      else if ¬ (-2 ^ 63 ≤ ns ∧ ns ≤ 2 ^ 63 - 1) then FaultedWith 0x12 s t
      else if ¬ (sc ≤ 2 ^ 32 - 1) then FaultedWith 0x13 s t
      else if gc < s.cfg.cycleThreshold then
        t.demod.signedAccumulator.toInt = acc ∧ t.demod.positiveSum.toInt = ps ∧ t.demod.negativeSum.toInt = ns ∧
        t.demod.sampleCount.toNat = sc ∧ t.demod.gateCount.toNat = gc ∧ t.demod.prevGate = gate ∧
        t.published = s.published ∧ t.publishHalf = s.publishHalf ∧
        KeepsPanel s t ∧ KeepsFault s t ∧ KeepsOutputs s t ∧ KeepsSurroundings s t
      else if ¬ (-2 ^ 31 ≤ q ∧ q ≤ 2 ^ 31 - 1) then FaultedWith 0x14 s t
      else s.cfg.publishAtomic = true →
        t.published.magnitude.toInt = q ∧ t.published.polarity.toInt = (if ps > ns then 1 else -1) ∧
        t.publishOut = s.publishOut ++ [publishWord t.published.polarity t.published.magnitude] ∧
        t.demod.signedAccumulator = 0 ∧ t.demod.positiveSum = 0 ∧ t.demod.negativeSum = 0 ∧
        t.demod.sampleCount = 0 ∧ t.demod.gateCount = 0 ∧ t.demod.prevGate = gate ∧ t.publishHalf = none ∧
        KeepsPanel s t ∧ KeepsFault s t ∧ t.displayOut = s.displayOut ∧ t.responses = s.responses ∧
        KeepsSurroundings s t)

/-- R241: with `PUBLISH_ATOMIC = false`, a `SAMPLE` that publishes writes the magnitude and owes the polarity, and all else
waits for the second step. That the registers meanwhile hold what steps 1 to 4 made of them is the model's choice (log 9). -/
def Obligations.NonAtomicSampleIsTheFirstStepOfAPublish : Prop :=
  ∀ (s : State) (raw : Int) (gate : Bool) (a : Accumulated) (q : Int),
    s.good → s.cfg.publishAtomic = false →
    a = accumulate s.cfg s.demod raw gate → a.overflow = none → s.cfg.cycleThreshold ≤ a.gc →
    q = Int.tdiv a.acc a.sc → -2 ^ 31 ≤ q ∧ q ≤ 2 ^ 31 - 1 →
    ∃ t, exec (.sample raw gate) s = .next t ∧
      t.published.magnitude.toInt = q ∧ t.published.polarity = s.published.polarity ∧
      (∃ p, t.publishHalf = some p ∧ p.toInt = if a.ps > a.ns then 1 else -1) ∧
      t.demod.signedAccumulator.toInt = a.acc ∧ t.demod.positiveSum.toInt = a.ps ∧ t.demod.negativeSum.toInt = a.ns ∧
      t.demod.sampleCount.toNat = a.sc ∧ t.demod.gateCount = BitVec.ofNat 32 a.gc ∧ t.demod.prevGate = gate ∧
      KeepsPanel s t ∧ KeepsFault s t ∧ KeepsOutputs s t ∧ KeepsSurroundings s t

/-- R117, R122: `tdiv` is division rounding toward zero, by its definition in the notation of the scope file. -/
def Obligations.TdivRoundsTowardZero : Prop :=
  ∀ a b : Int, 0 < b →
    ∀ q, tdiv a b = q ↔ ∃ r, a = q * b + r ∧ |r| < b ∧ (r = 0 ∨ (0 < r ∧ 0 < a) ∨ (r < 0 ∧ a < 0))

/-- R123 (a), (b): in every publish, from a state whose accumulator is the difference of its sums (R26), the polarity is
`+1` exactly when the accumulator is positive, and a magnitude other than 0 has its sign. -/
def Obligations.PublishedPolarityIsTheAccumulatorsSign : Prop :=
  ∀ (s t : State) (raw : Int) (gate : Bool),
    s.good → DemodInv s → s.cfg.publishAtomic = true →
    exec (.sample raw gate) s = .next t → t.publishOut ≠ s.publishOut →
    (t.published.polarity = 1 ∨ t.published.polarity = -1) ∧
    (t.published.polarity = 1 ↔
      0 < s.demod.signedAccumulator.toInt +
        (if gate then raw - s.cfg.baselineOffset else s.cfg.baselineOffset - raw)) ∧
    (0 < t.published.magnitude.toInt → t.published.polarity = 1) ∧
    (t.published.magnitude.toInt < 0 → t.published.polarity = -1)

/-- R241: with `PUBLISH_ATOMIC = false`, the two steps of a publish together leave what the one step leaves with
`PUBLISH_ATOMIC = true`. -/
def Obligations.TwoStepPublishEqualsOneStepPublish : Prop :=
  ∀ (s t u : State) (raw : Int) (gate : Bool) (p : BitVec 8),
    s.cfg.publishAtomic = false → s.publishHalf = none →
    exec (.sample raw gate) s = .next t → t.publishHalf = some p →
    exec (.sample raw gate) { s with cfg := { s.cfg with publishAtomic := true } } = .next u →
    settlePublish t = { u with cfg := s.cfg }

/-- R125: `RDMAG`. -/
def Obligations.RdmagRespondsWithTheMagnitude : Prop :=
  ∀ s : State,
    (s.faulted = true → exec .rdmag s = .next s) ∧
    (s.hostReady → exec .rdmag s = .next { s with responses := s.responses ++ [s.published.magnitude] })

/-- R126, R95: `RDPOL` responds with the polarity sign-extended to 32 bits. -/
def Obligations.RdpolRespondsWithThePolaritySignExtended : Prop :=
  ∀ s : State,
    (s.faulted = true → exec .rdpol s = .next s) ∧
    (s.hostReady → ∃ w : ResponseWord, w.toInt = s.published.polarity.toInt ∧
      exec .rdpol s = .next { s with responses := s.responses ++ [w] })

/-! ## The Real-Time Dispatcher -/

/-- R142, R140: a `TICK` completes and writes the registers listed for it only, and no other event but `RESET` advances
them. -/
def Obligations.TickWritesItsRegistersOnlyAndAlone : Prop :=
  (∀ (s : State) (mask : BitVec 5), s.good → s.cursorReady → ∃ t, exec (.tick mask) s = .next t ∧
    KeepsMeasurement s t ∧ KeepsBuffer s t ∧ KeepsFault s t ∧ KeepsSurroundings s t ∧
    t.text = s.text ∧ t.publishOut = s.publishOut ∧ t.responses = s.responses ∧
    (∀ i, (t.btn.get i).pressCount = (s.btn.get i).pressCount)) ∧
  (∀ (i : Instr) (s t : State), (∀ mask, i ≠ .tick mask) → i ≠ .reset → exec i s = .next t →
    t.disp.cursor = s.disp.cursor ∧ t.disp.stage = s.disp.stage ∧
    ∀ b, (t.btn.get b).holdTicks = (s.btn.get b).holdTicks ∧ (t.btn.get b).stage = (s.btn.get b).stage)

/-- R140, corner case: with the display in `Idle` and not dirty, and every button released, in `Idle`, with `hold_ticks = 0`,
a `TICK` changes nothing at all. -/
def Obligations.IdleTickChangesNothing : Prop :=
  ∀ s : State, s.disp.stage = .idle → s.disp.dirty = false →
    (∀ i, (s.btn.get i).stage = .idle ∧ (s.btn.get i).holdTicks = 0) →
    exec (.tick 0b11111#5) s = .next s

/-! ## The Display Multiplexer -/

/-- R156 to R160: the transition table of the display step, row by row, for the `TICK` that runs it. -/
def Obligations.DisplayStepFollowsItsTable : Prop :=
  ∀ (s : State) (mask : BitVec 5) (cur W H : Nat), s.good → s.cursorReady →
    cur = s.disp.cursor.toNat → W = s.cfg.width → H = s.cfg.height →
    ∃ t, exec (.tick mask) s = .next t ∧
      match s.disp.stage with
      | .idle =>
        t.displayOut = s.displayOut ∧
        if s.disp.dirty then t.disp.stage = .positionRow ∧ t.disp.cursor = 0 ∧ t.disp.dirty = false
        else t.disp = s.disp
      | .positionRow =>
        t.displayOut = s.displayOut ++ [displayWord 0x01 (cur / W) (cur % W) 0] ∧
        t.disp.stage = .positionColumn ∧ t.disp.cursor = s.disp.cursor ∧ t.disp.dirty = s.disp.dirty
      | .positionColumn =>
        t.displayOut = s.displayOut ++ [displayWord 0x02 (cur / W) (cur % W) 0] ∧
        t.disp.stage = .emit ∧ t.disp.cursor = s.disp.cursor ∧ t.disp.dirty = s.disp.dirty
      | .emit =>
        t.displayOut = s.displayOut ++ [displayWord 0x03 0 0 (s.cell cur).toNat] ∧
        t.disp.dirty = s.disp.dirty ∧
        if cur + 1 = W * H then t.disp.stage = .idle ∧ t.disp.cursor = 0
        else t.disp.cursor.toNat = cur + 1 ∧
          t.disp.stage = if (cur + 1) % W = 0 then .positionRow else .emit

/-- The model's choice (log 7): a display step that addresses a cell at or past `W×H` stops by name. No state reached from
`RESET` does so (R42). -/
def Obligations.TickStopsWhereNoCellExists : Prop :=
  ∀ (s : State) (mask : BitVec 5), s.good → s.disp.stage ≠ .idle → s.cfg.cells ≤ s.disp.cursor.toNat →
    exec (.tick mask) s = .fault (.noSuchCell s.disp.cursor.toNat)

/-- R92, R101, R155: a `SETTEXT` header with `len > 0` opens a text and has no other effect; with `len = 0` it is the whole
event: in range it sets `dirty`, out of range it changes nothing. -/
def Obligations.SettextHeaderOpensATextOrIsTheWholeEvent : Prop :=
  ∀ (s : State) (row col len : Nat), s.hostReady → ∃ t, exec (.settext row col len) s = .next t ∧
    if len ≠ 0 then t = { s with text := { row := row, col := col, need := len, bytes := [] } }
    else if row < s.cfg.height ∧ col < s.cfg.width then
      t.disp.dirty = true ∧ t.disp.stage = s.disp.stage ∧ t.disp.cursor = s.disp.cursor ∧ t.text = s.text ∧
      KeepsMeasurement s t ∧ KeepsButtons s t ∧ KeepsBuffer s t ∧ KeepsFault s t ∧ KeepsOutputs s t ∧
      KeepsSurroundings s t
    else t = s

/-- R101, R165, R152: a `TEXTDATA` that is not the last appends its byte and nothing else; the last one performs the
`SETTEXT` with all the bytes, each in range stored at its linear offset `col + row*W + k`. -/
def Obligations.TextdataAppendsAndTheLastOnePerformsTheText : Prop :=
  ∀ (s : State) (byte : Byte), s.good → s.text.need ≠ 0 → MemoryInv s → ∃ t, exec (.textdata byte) s = .next t ∧
    t.disp.stage = s.disp.stage ∧ t.disp.cursor = s.disp.cursor ∧
    KeepsMeasurement s t ∧ KeepsButtons s t ∧ KeepsFault s t ∧ KeepsOutputs s t ∧ KeepsSurroundings s t ∧
    if s.text.need ≠ 1 then
      t.text = { s.text with need := s.text.need - 1, bytes := s.text.bytes ++ [byte] } ∧
      t.disp.dirty = s.disp.dirty ∧ KeepsBuffer s t
    else t.text.need = 0 ∧
      if s.text.row < s.cfg.height ∧ s.text.col < s.cfg.width then
        t.disp.dirty = true ∧
        (∀ k (h : k < (s.text.bytes ++ [byte]).length),
          linearOffset s.cfg s.text.row s.text.col + k < s.cfg.cells →
          t.cell (linearOffset s.cfg s.text.row s.text.col + k) = (s.text.bytes ++ [byte])[k]) ∧
        (∀ a, (a < linearOffset s.cfg s.text.row s.text.col ∨
            linearOffset s.cfg s.text.row s.text.col + (s.text.bytes ++ [byte]).length ≤ a ∨ s.cfg.cells ≤ a) →
          t.cell a = s.cell a)
      else t.disp.dirty = s.disp.dirty ∧ KeepsBuffer s t

/-- R152 to R155, for the whole event, header and data words: ignored on a faulted block; without effect before its last
word; then a no-op out of range, else the bytes at consecutive offsets from `col + row*W`, clipped at `W×H`, every other
cell as before, and `dirty` set. -/
def Obligations.SettextCopiesClipsAndSetsDirty : Prop :=
  (∀ (s : State) (row col : Nat) (bytes : List Byte), s.faulted = true →
    performAll (Instr.text row col bytes) s = .next s) ∧
  (∀ (s : State) (row col : Nat) (bytes : List Byte) (n : Nat), s.hostReady → n ≤ bytes.length →
    ∃ u, performAll ((Instr.text row col bytes).take n) s = .next u ∧ u = s.setAssembly u.text) ∧
  (∀ (s : State) (row col : Nat) (bytes : List Byte) (W H : Nat), s.hostReady → MemoryInv s → TextInv s →
    W = s.cfg.width → H = s.cfg.height →
    ∃ t, performAll (Instr.text row col bytes) s = .next t ∧
      if row ≥ H ∨ col ≥ W then t = s
      else
        t.disp.dirty = true ∧ t.disp.stage = s.disp.stage ∧ t.disp.cursor = s.disp.cursor ∧ t.text = s.text ∧
        (∀ k (h : k < bytes.length), col + row * W + k < W * H → t.cell (col + row * W + k) = bytes[k]) ∧
        (∀ a, (a < col + row * W ∨ col + row * W + bytes.length ≤ a ∨ W * H ≤ a) → t.cell a = s.cell a) ∧
        KeepsMeasurement s t ∧ KeepsButtons s t ∧ KeepsFault s t ∧ KeepsOutputs s t ∧ KeepsSurroundings s t)

/-- R202: a `TEXTDATA` with none owed, and any other word on the host port while data words are owed (`RESET` aside, U18),
raise `BadSequence`; the partly received text is discarded and has no effect. -/
def Obligations.BadSequenceDiscardsTheText : Prop :=
  (∀ (s : State) (byte : Byte), s.good → s.text.need = 0 →
    ∃ t, exec (.textdata byte) s = .next t ∧ FaultedInText s t) ∧
  (∀ (s : State) (i : Instr), s.good → s.text.need ≠ 0 → i.agent = .host → (∀ byte, i ≠ .textdata byte) →
    ∃ t, exec i s = .next t ∧ FaultedInText s t) ∧
  (∀ (s : State) (e : EventWord) (rest : List PortInputs) (i : Instr),
    s.good → s.publishHalf = none → s.text.need ≠ 0 → fetch s.inputs = .word .host e rest → decode e = .ok i →
    i ≠ .reset → (∀ byte, i ≠ .textdata byte) →
    ∃ t, step s = .next t ∧ FaultedInText (s.setInputs rest) t)

/-- R42, R164, C2: once `dirty` is `true` it stays `true` until a `TICK` finds the stage `Idle`, and that `TICK` starts a
pass at cursor 0 (or a `RESET` clears it). -/
def Obligations.DirtyStaysUntilAPassStarts : Prop :=
  ∀ (i : Instr) (s t : State), s.disp.dirty = true → exec i s = .next t →
    t.disp.dirty = true ∨ i = .reset ∨
    (∃ mask, i = .tick mask ∧ s.disp.stage = .idle ∧ t.disp.stage = .positionRow ∧ t.disp.cursor = 0)

/-- R161, R162: from `Idle` with `dirty` set, a pass is `1 + H×(W + 2)` ticks, whatever the buttons do; it sends the words
of R162, every cell once in row-major order, and is back in `Idle` with `dirty` false then and not before. -/
def Obligations.DisplayPassSendsEveryCellOnce : Prop :=
  ∀ (s : State) (masks : List (BitVec 5)), s.good → s.disp.stage = .idle → s.disp.dirty = true →
    (masks.length = 1 + s.cfg.height * (s.cfg.width + 2) →
      ∃ t, performAll (masks.map .tick) s = .next t ∧ t.disp.stage = .idle ∧ t.disp.cursor = 0 ∧
        t.disp.dirty = false ∧ t.displayOut = s.displayOut ++ passWords s) ∧
    (0 < masks.length → masks.length < 1 + s.cfg.height * (s.cfg.width + 2) →
      ∃ t, performAll (masks.map .tick) s = .next t ∧ t.disp.stage ≠ .idle)

/-! ## The Debounce/Repeat Engine -/

/-- R181, R183 to R187: the transition table of every button, row by row, for the `TICK` that runs it: a 0 in the raw mask
is a held button. -/
def Obligations.ButtonStepFollowsItsTable : Prop :=
  ∀ (s : State) (mask : BitVec 5), s.good → s.cursorReady → ∃ t, exec (.tick mask) s = .next t ∧
    ∀ (i : Fin 5) (b b' : ButtonState), b = s.btn.get i → b' = t.btn.get i →
      if mask.getLsbD i.val = false then
        let threshold := match b.stage with
          | .idle => s.cfg.onThreshold
          | .held => s.cfg.repeatDelay
          | .repeating => s.cfg.repeatPeriod
        if threshold ≤ b.holdTicks.toNat + 1 then
          t.fired.get i = true ∧ b'.holdTicks = 0 ∧
          b'.stage = (match b.stage with
            | .idle => .held
            | .held => .repeating
            | .repeating => .repeating)
        else t.fired.get i = s.fired.get i ∧ b'.holdTicks.toNat = b.holdTicks.toNat + 1 ∧ b'.stage = b.stage
      else
        t.fired.get i = s.fired.get i ∧ b'.stage = .idle ∧
        b'.holdTicks = if b.stage ≠ .idle ∧ s.cfg.releaseKeepsHold = true then b.holdTicks else 0

/-- R189 on the machine, read as V32 reads it: a button held from `Idle` with `hold_ticks = 0` and read after every tick
responds 1 after exactly the ticks `ON_THRESHOLD` and `ON_THRESHOLD + REPEAT_DELAY + (k-1)×REPEAT_PERIOD`, `k ≥ 1`. -/
def Obligations.HeldButtonFiresAtTheEventTicks : Prop :=
  ∀ (s : State) (i : Fin 5) (mask : BitVec 5) (n : Nat), s.hostReady → DisplayInv s →
    mask.getLsbD i.val = false → (s.btn.get i).stage = .idle → (s.btn.get i).holdTicks = 0 → s.fired.get i = false →
    ∃ t, performAll (List.flatten (List.replicate n [.tick mask, .rdfired i.val])) s = .next t ∧
      t.responses = s.responses ++ (List.range n).map fun k => if isEventTick s.cfg (k + 1) then 1 else 0

/-- R188, R245: a button in `Held` or `Repeating` seen released for one tick and held in the next: with
`RELEASE_KEEPS_HOLD` it counts on from the kept value and fires at once if that reaches `ON_THRESHOLD`, without it it
counts from 0. -/
def Obligations.OneTickReleaseCountsOnFromTheKeptValue : Prop :=
  ∀ (s : State) (i : Fin 5) (release hold : BitVec 5) (kept : Nat), s.good → DisplayInv s →
    release.getLsbD i.val = true → hold.getLsbD i.val = false → (s.btn.get i).stage ≠ .idle →
    kept = (if s.cfg.releaseKeepsHold then (s.btn.get i).holdTicks.toNat else 0) →
    ∃ t, performAll [.tick release, .tick hold] s = .next t ∧
      if s.cfg.onThreshold ≤ kept + 1 then
        t.fired.get i = true ∧ (t.btn.get i).stage = .held ∧ (t.btn.get i).holdTicks = 0
      else
        t.fired.get i = s.fired.get i ∧ (t.btn.get i).stage = .idle ∧ (t.btn.get i).holdTicks.toNat = kept + 1

/-- R190, R203: `RDFIRED`, every index. -/
def Obligations.RdfiredReadsAndClearsOneFlag : Prop :=
  ∀ (s : State) (idx : Nat),
    (s.faulted = true → exec (.rdfired idx) s = .next s) ∧
    (s.hostReady → ∃ t, exec (.rdfired idx) s = .next t ∧
      if h : idx ≤ 4 then
        t.responses = s.responses ++ [if s.fired.get ⟨idx, by omega⟩ then 1 else 0] ∧
        (∀ j : Fin 5, t.fired.get j = if j.val = idx then false else s.fired.get j) ∧
        t.btn = s.btn ∧ t.disp = s.disp ∧ t.text = s.text ∧ KeepsMeasurement s t ∧ KeepsBuffer s t ∧
        KeepsFault s t ∧ KeepsSurroundings s t ∧ t.displayOut = s.displayOut ∧ t.publishOut = s.publishOut
      else FaultedWith 0x03 s t)

/-- R191: "a second read before a new event returns 'not fired'", whatever other events than `TICK` fall between the two
reads, as long as none of them is turned away or faults. -/
def Obligations.SecondReadReturnsNotFired : Prop :=
  ∀ (s t : State) (i : Fin 5) (between : List Instr), s.good → (∀ mask, Instr.tick mask ∉ between) →
    performAll (.rdfired i.val :: between ++ [.rdfired i.val]) s = .next t → t.good →
    ∃ earlier, t.responses = earlier ++ [0]

/-! ## Faults -/

/-- R200, R205: `raise` writes `faulted` and `fault_code`, which keeps the code of the first fault; a faulted block ignores
every event but `RESET`, and `RESET` clears both. -/
def Obligations.FaultedBlockObeysOnlyReset : Prop :=
  (∀ (f : FaultKind) (s : State), s.good → FaultedWith f.code s (raise f s)) ∧
  (∀ (f : FaultKind) (s : State), s.faulted = true → raise f s = s) ∧
  (∀ (i : Instr) (s : State), s.faulted = true → i ≠ .reset → exec i s = .next s) ∧
  (∀ (s : State) (port : InPort) (e : EventWord) (rest : List PortInputs), s.faulted = true →
    fetch s.inputs = .word port e rest → e ≠ 0x0100000000#40 → step s = .next (s.setInputs rest)) ∧
  (∀ s t : State, exec .reset s = .next t → t.faulted = false ∧ t.faultCode = 0)

/-! ## Ownership: who reads and writes what (R66 to R70, R213) -/

/-- R66: "only `SAMPLE` (and `RESET`) reads or writes it": every other event does the same whatever DemodulationState
holds, and leaves it. -/
def Obligations.OnlySampleAndResetTouchDemodulationState : Prop :=
  ∀ (i : Instr) (s : State) (d : DemodulationState), (∀ raw gate, i ≠ .sample raw gate) → i ≠ .reset →
    exec i (s.setDemod d) = Result.map (·.setDemod d) (exec i s)

/-- R67: the published pair is written by `SAMPLE` (and `RESET`) only and read by `RDMAG` and `RDPOL` only; `SAMPLE` never
reads it. -/
def Obligations.PublishedPairIsWrittenBySampleAndReadByTheHost : Prop :=
  (∀ (i : Instr) (s : State) (p : PublishedMeasurement),
    (∀ raw gate, i ≠ .sample raw gate) → i ≠ .reset → i ≠ .rdmag → i ≠ .rdpol →
    exec i (s.setPublished p) = Result.map (·.setPublished p) (exec i s)) ∧
  (∀ (i : Instr) (s t : State), i = .rdmag ∨ i = .rdpol → exec i s = .next t → t.published = s.published) ∧
  (∀ (s : State) (p : PublishedMeasurement) (raw : Int) (gate : Bool), ∃ t u,
    exec (.sample raw gate) s = .next t ∧ exec (.sample raw gate) (s.setPublished p) = .next u ∧
    u.setPublished t.published = t)

/-- R68: ButtonState is read and written by `TICK` (and `RESET`) only; `fired[i]` is set by `TICK` only, and read and cleared
by `RDFIRED` only (and `RESET`). -/
def Obligations.ButtonsBelongToTickAndFlagsToTickAndRdfired : Prop :=
  (∀ (i : Instr) (s : State) (b : Five ButtonState), (∀ mask, i ≠ .tick mask) → i ≠ .reset →
    exec i (s.setButtons b) = Result.map (·.setButtons b) (exec i s)) ∧
  (∀ (i : Instr) (s : State) (f : Five Bool), (∀ mask, i ≠ .tick mask) → (∀ idx, i ≠ .rdfired idx) → i ≠ .reset →
    exec i (s.setFired f) = Result.map (·.setFired f) (exec i s)) ∧
  (∀ (s t : State) (mask : BitVec 5) (b : Fin 5), exec (.tick mask) s = .next t → s.fired.get b = true →
    t.fired.get b = true) ∧
  (∀ (s t : State) (idx : Nat) (b : Fin 5), exec (.rdfired idx) s = .next t → s.fired.get b = false →
    t.fired.get b = false)

/-- R69: `disp.cursor` and `disp.stage` belong to `TICK` (and `RESET`); `frame_buffer` is written by `SETTEXT` (and `RESET`)
only and read by `TICK` only; of `dirty`, `SETTEXT` is the only setter and `TICK` (and `RESET`) the only clearer. -/
def Obligations.DisplayRegistersBelongToTickAndBufferToSettext : Prop :=
  (∀ (i : Instr) (s : State) (cursor : BitVec 16) (stage : DisplayStage), (∀ mask, i ≠ .tick mask) → i ≠ .reset →
    exec i (s.withPosition cursor stage) = Result.map (·.withPosition cursor stage) (exec i s)) ∧
  (∀ (i : Instr) (s : State) (m : Memory), (∀ mask, i ≠ .tick mask) → i ≠ .reset →
    (∀ row col len, i ≠ .settext row col len) → (∀ byte, i ≠ .textdata byte) →
    exec i (s.setMem m) = Result.map (·.setMem m) (exec i s)) ∧
  (∀ (s t : State) (mask : BitVec 5), exec (.tick mask) s = .next t → t.mem = s.mem) ∧
  (∀ (i : Instr) (s t : State), exec i s = .next t → s.disp.dirty = false → t.disp.dirty = true →
    (∃ row col len, i = .settext row col len) ∨ (∃ byte, i = .textdata byte)) ∧
  (∀ (i : Instr) (s t : State), exec i s = .next t → s.disp.dirty = true → t.disp.dirty = false →
    (∃ mask, i = .tick mask) ∨ i = .reset)

/-- R35, R193: `press_count` is 0 after `RESET`, and no other event reads or writes it. -/
def Obligations.PressCountIsNeverReadOrWritten : Prop :=
  (∀ s t : State, exec .reset s = .next t → ∀ i, (t.btn.get i).pressCount = 0) ∧
  (∀ (i : Instr) (s : State) (counts : Five (BitVec 32)), i ≠ .reset →
    exec i (s.withPressCounts counts) = Result.map (State.withPressCounts counts) (exec i s)) ∧
  (∀ (i : Instr) (s t : State), i ≠ .reset → exec i s = .next t →
    ∀ b, (t.btn.get b).pressCount = (s.btn.get b).pressCount)

/-- R12, R70: a `SAMPLE` commutes with any adjacent `TICK`, `SETTEXT`, `TEXTDATA` or `RDFIRED`, and a read of the published
pair with a `TICK`, where neither event faults: the final state, the words on each port and the responses are the same. -/
def Obligations.EventsOfTheTwoPartsCommute : Prop :=
  ∀ (i j : Instr) (s s1 s2 : State),
    ((i.agent = .sampling ∧ (j.agent = .timer ∨ ∃ idx, j = .rdfired idx)) ∨
      (i.agent = .sampling ∧ ((∃ row col len, j = .settext row col len) ∨ ∃ byte, j = .textdata byte)) ∨
      ((i = .rdmag ∨ i = .rdpol) ∧ j.agent = .timer)) →
    exec i s = .next s1 → exec j s = .next s2 → s1.good → s2.good →
    ∃ t, exec j s1 = .next t ∧ exec i s2 = .next t

/-! ## Invariants that every step keeps -/

/-- The frame buffer keeps its canonical form: rising offsets below `W×H`, no cell listed with its reset byte. -/
def Obligations.StepKeepsTheFrameBufferCanonical : Prop :=
  ∀ s t : State, MemoryInv s → step s = .next t → MemoryInv t

/-- R42, R164: `0 ≤ cursor < W×H`; `cursor mod W = 0` in the positioning stages; `cursor = 0` in `Idle`. -/
def Obligations.StepKeepsTheDisplayInvariant : Prop :=
  ∀ s t : State, DisplayInv s → step s = .next t → DisplayInv t

/-- R26 (a) to (d). -/
def Obligations.StepKeepsTheDemodulatorInvariant : Prop :=
  ∀ s t : State, DemodInv s → step s = .next t → DemodInv t

/-- R127: no sum exceeds `sample_count × (2^32 - 1)`, so that within `2^31` samples of a publish no accumulator check and no
`sample_count` check can fail. -/
def Obligations.SumsStayBoundedByTheSampleCount : Prop :=
  (∀ s t : State, SumBounds s → step s = .next t → SumBounds t) ∧
  (∀ (s t : State) (raw : Int) (gate : Bool), s.good → SumBounds s → isI32 raw = true →
    s.demod.sampleCount.toNat < 2 ^ 31 → exec (.sample raw gate) s = .next t →
    t.faulted = true → t.faultCode = 0x14)

/-- R192: `hold_ticks < max(ON_THRESHOLD, REPEAT_DELAY, REPEAT_PERIOD)`. -/
def Obligations.StepKeepsHoldTicksBelowTheThresholds : Prop :=
  ∀ s t : State, HoldInv s → step s = .next t → HoldInv t

/-- R31, R205: `fault_code` is 0 exactly while `faulted` is `false`, and else one of the codes. -/
def Obligations.StepKeepsTheFaultPortConsistent : Prop :=
  ∀ s t : State, FaultInv s → step s = .next t → FaultInv t

/-- R92, R101, R241: the text assembly buffer is empty when no word is owed and never longer than `len` allows, and a publish
is half done only with `PUBLISH_ATOMIC = false`. -/
def Obligations.StepKeepsTextAndPublishInvariants : Prop :=
  (∀ s t : State, TextInv s → step s = .next t → TextInv t) ∧
  (∀ s t : State, PublishInv s → step s = .next t → PublishInv t)

/-- Equal frame buffers are equal data: two canonical memories that read alike at every existing cell are the same. -/
def Obligations.CanonicalFrameBuffersAreDeterminedByTheirCells : Prop :=
  ∀ (c : Config) (m n : Memory), Memory.wf c m = true → Memory.wf c n = true →
    (∀ k, k < c.cells → Memory.read c m k = Memory.read c n k) → m = n

/-- R42 along a run: from a state that satisfies the display invariant, no number of steps ends in a fault or a refusal of
the model. -/
def Obligations.NoRunStopsFromTheDisplayInvariant : Prop :=
  ∀ (n : Nat) (s : State), DisplayInv s → ∃ t, Sys2Proof.core.run n s = .next t ∧ DisplayInv t
end

