-- ==== Sys2Proof/Laws/State.lean ====
section
/-! SUPPORT. One lemma per field per state update of Machine/Ops.lean. -/

namespace Sys2Proof.Machine

variable (s : State)

@[simp] theorem State.setDemod_cfg (d : DemodulationState) : (s.setDemod d).cfg = s.cfg := rfl
@[simp] theorem State.setDemod_demod (d : DemodulationState) : (s.setDemod d).demod = d := rfl
@[simp] theorem State.setDemod_published (d : DemodulationState) : (s.setDemod d).published = s.published := rfl
@[simp] theorem State.setDemod_publishHalf (d : DemodulationState) : (s.setDemod d).publishHalf = s.publishHalf := rfl
@[simp] theorem State.setDemod_btn (d : DemodulationState) : (s.setDemod d).btn = s.btn := rfl
@[simp] theorem State.setDemod_fired (d : DemodulationState) : (s.setDemod d).fired = s.fired := rfl
@[simp] theorem State.setDemod_mem (d : DemodulationState) : (s.setDemod d).mem = s.mem := rfl
@[simp] theorem State.setDemod_disp (d : DemodulationState) : (s.setDemod d).disp = s.disp := rfl
@[simp] theorem State.setDemod_faulted (d : DemodulationState) : (s.setDemod d).faulted = s.faulted := rfl
@[simp] theorem State.setDemod_faultCode (d : DemodulationState) : (s.setDemod d).faultCode = s.faultCode := rfl
@[simp] theorem State.setDemod_text (d : DemodulationState) : (s.setDemod d).text = s.text := rfl
@[simp] theorem State.setDemod_displayOut (d : DemodulationState) : (s.setDemod d).displayOut = s.displayOut := rfl
@[simp] theorem State.setDemod_publishOut (d : DemodulationState) : (s.setDemod d).publishOut = s.publishOut := rfl
@[simp] theorem State.setDemod_responses (d : DemodulationState) : (s.setDemod d).responses = s.responses := rfl
@[simp] theorem State.setDemod_inputs (d : DemodulationState) : (s.setDemod d).inputs = s.inputs := rfl
@[simp] theorem State.setDemod_cell (d : DemodulationState) (k : Nat) : (s.setDemod d).cell k = s.cell k := rfl

@[simp] theorem State.setPublished_cfg (p : PublishedMeasurement) : (s.setPublished p).cfg = s.cfg := rfl
@[simp] theorem State.setPublished_demod (p : PublishedMeasurement) : (s.setPublished p).demod = s.demod := rfl
@[simp] theorem State.setPublished_published (p : PublishedMeasurement) : (s.setPublished p).published = p := rfl
@[simp] theorem State.setPublished_publishHalf (p : PublishedMeasurement) : (s.setPublished p).publishHalf = s.publishHalf := rfl
@[simp] theorem State.setPublished_btn (p : PublishedMeasurement) : (s.setPublished p).btn = s.btn := rfl
@[simp] theorem State.setPublished_fired (p : PublishedMeasurement) : (s.setPublished p).fired = s.fired := rfl
@[simp] theorem State.setPublished_mem (p : PublishedMeasurement) : (s.setPublished p).mem = s.mem := rfl
@[simp] theorem State.setPublished_disp (p : PublishedMeasurement) : (s.setPublished p).disp = s.disp := rfl
@[simp] theorem State.setPublished_faulted (p : PublishedMeasurement) : (s.setPublished p).faulted = s.faulted := rfl
@[simp] theorem State.setPublished_faultCode (p : PublishedMeasurement) : (s.setPublished p).faultCode = s.faultCode := rfl
@[simp] theorem State.setPublished_text (p : PublishedMeasurement) : (s.setPublished p).text = s.text := rfl
@[simp] theorem State.setPublished_displayOut (p : PublishedMeasurement) : (s.setPublished p).displayOut = s.displayOut := rfl
@[simp] theorem State.setPublished_publishOut (p : PublishedMeasurement) : (s.setPublished p).publishOut = s.publishOut := rfl
@[simp] theorem State.setPublished_responses (p : PublishedMeasurement) : (s.setPublished p).responses = s.responses := rfl
@[simp] theorem State.setPublished_inputs (p : PublishedMeasurement) : (s.setPublished p).inputs = s.inputs := rfl
@[simp] theorem State.setPublished_cell (p : PublishedMeasurement) (k : Nat) : (s.setPublished p).cell k = s.cell k := rfl

@[simp] theorem State.setPublishHalf_cfg (p : Option (BitVec 8)) : (s.setPublishHalf p).cfg = s.cfg := rfl
@[simp] theorem State.setPublishHalf_demod (p : Option (BitVec 8)) : (s.setPublishHalf p).demod = s.demod := rfl
@[simp] theorem State.setPublishHalf_published (p : Option (BitVec 8)) : (s.setPublishHalf p).published = s.published := rfl
@[simp] theorem State.setPublishHalf_publishHalf (p : Option (BitVec 8)) : (s.setPublishHalf p).publishHalf = p := rfl
@[simp] theorem State.setPublishHalf_btn (p : Option (BitVec 8)) : (s.setPublishHalf p).btn = s.btn := rfl
@[simp] theorem State.setPublishHalf_fired (p : Option (BitVec 8)) : (s.setPublishHalf p).fired = s.fired := rfl
@[simp] theorem State.setPublishHalf_mem (p : Option (BitVec 8)) : (s.setPublishHalf p).mem = s.mem := rfl
@[simp] theorem State.setPublishHalf_disp (p : Option (BitVec 8)) : (s.setPublishHalf p).disp = s.disp := rfl
@[simp] theorem State.setPublishHalf_faulted (p : Option (BitVec 8)) : (s.setPublishHalf p).faulted = s.faulted := rfl
@[simp] theorem State.setPublishHalf_faultCode (p : Option (BitVec 8)) : (s.setPublishHalf p).faultCode = s.faultCode := rfl
@[simp] theorem State.setPublishHalf_text (p : Option (BitVec 8)) : (s.setPublishHalf p).text = s.text := rfl
@[simp] theorem State.setPublishHalf_displayOut (p : Option (BitVec 8)) : (s.setPublishHalf p).displayOut = s.displayOut := rfl
@[simp] theorem State.setPublishHalf_publishOut (p : Option (BitVec 8)) : (s.setPublishHalf p).publishOut = s.publishOut := rfl
@[simp] theorem State.setPublishHalf_responses (p : Option (BitVec 8)) : (s.setPublishHalf p).responses = s.responses := rfl
@[simp] theorem State.setPublishHalf_inputs (p : Option (BitVec 8)) : (s.setPublishHalf p).inputs = s.inputs := rfl
@[simp] theorem State.setPublishHalf_cell (p : Option (BitVec 8)) (k : Nat) : (s.setPublishHalf p).cell k = s.cell k := rfl

@[simp] theorem State.setButtons_cfg (b : Five ButtonState) : (s.setButtons b).cfg = s.cfg := rfl
@[simp] theorem State.setButtons_demod (b : Five ButtonState) : (s.setButtons b).demod = s.demod := rfl
@[simp] theorem State.setButtons_published (b : Five ButtonState) : (s.setButtons b).published = s.published := rfl
@[simp] theorem State.setButtons_publishHalf (b : Five ButtonState) : (s.setButtons b).publishHalf = s.publishHalf := rfl
@[simp] theorem State.setButtons_btn (b : Five ButtonState) : (s.setButtons b).btn = b := rfl
@[simp] theorem State.setButtons_fired (b : Five ButtonState) : (s.setButtons b).fired = s.fired := rfl
@[simp] theorem State.setButtons_mem (b : Five ButtonState) : (s.setButtons b).mem = s.mem := rfl
@[simp] theorem State.setButtons_disp (b : Five ButtonState) : (s.setButtons b).disp = s.disp := rfl
@[simp] theorem State.setButtons_faulted (b : Five ButtonState) : (s.setButtons b).faulted = s.faulted := rfl
@[simp] theorem State.setButtons_faultCode (b : Five ButtonState) : (s.setButtons b).faultCode = s.faultCode := rfl
@[simp] theorem State.setButtons_text (b : Five ButtonState) : (s.setButtons b).text = s.text := rfl
@[simp] theorem State.setButtons_displayOut (b : Five ButtonState) : (s.setButtons b).displayOut = s.displayOut := rfl
@[simp] theorem State.setButtons_publishOut (b : Five ButtonState) : (s.setButtons b).publishOut = s.publishOut := rfl
@[simp] theorem State.setButtons_responses (b : Five ButtonState) : (s.setButtons b).responses = s.responses := rfl
@[simp] theorem State.setButtons_inputs (b : Five ButtonState) : (s.setButtons b).inputs = s.inputs := rfl
@[simp] theorem State.setButtons_cell (b : Five ButtonState) (k : Nat) : (s.setButtons b).cell k = s.cell k := rfl

@[simp] theorem State.setFired_cfg (f : Five Bool) : (s.setFired f).cfg = s.cfg := rfl
@[simp] theorem State.setFired_demod (f : Five Bool) : (s.setFired f).demod = s.demod := rfl
@[simp] theorem State.setFired_published (f : Five Bool) : (s.setFired f).published = s.published := rfl
@[simp] theorem State.setFired_publishHalf (f : Five Bool) : (s.setFired f).publishHalf = s.publishHalf := rfl
@[simp] theorem State.setFired_btn (f : Five Bool) : (s.setFired f).btn = s.btn := rfl
@[simp] theorem State.setFired_fired (f : Five Bool) : (s.setFired f).fired = f := rfl
@[simp] theorem State.setFired_mem (f : Five Bool) : (s.setFired f).mem = s.mem := rfl
@[simp] theorem State.setFired_disp (f : Five Bool) : (s.setFired f).disp = s.disp := rfl
@[simp] theorem State.setFired_faulted (f : Five Bool) : (s.setFired f).faulted = s.faulted := rfl
@[simp] theorem State.setFired_faultCode (f : Five Bool) : (s.setFired f).faultCode = s.faultCode := rfl
@[simp] theorem State.setFired_text (f : Five Bool) : (s.setFired f).text = s.text := rfl
@[simp] theorem State.setFired_displayOut (f : Five Bool) : (s.setFired f).displayOut = s.displayOut := rfl
@[simp] theorem State.setFired_publishOut (f : Five Bool) : (s.setFired f).publishOut = s.publishOut := rfl
@[simp] theorem State.setFired_responses (f : Five Bool) : (s.setFired f).responses = s.responses := rfl
@[simp] theorem State.setFired_inputs (f : Five Bool) : (s.setFired f).inputs = s.inputs := rfl
@[simp] theorem State.setFired_cell (f : Five Bool) (k : Nat) : (s.setFired f).cell k = s.cell k := rfl

@[simp] theorem State.setMem_cfg (m : Memory) : (s.setMem m).cfg = s.cfg := rfl
@[simp] theorem State.setMem_demod (m : Memory) : (s.setMem m).demod = s.demod := rfl
@[simp] theorem State.setMem_published (m : Memory) : (s.setMem m).published = s.published := rfl
@[simp] theorem State.setMem_publishHalf (m : Memory) : (s.setMem m).publishHalf = s.publishHalf := rfl
@[simp] theorem State.setMem_btn (m : Memory) : (s.setMem m).btn = s.btn := rfl
@[simp] theorem State.setMem_fired (m : Memory) : (s.setMem m).fired = s.fired := rfl
@[simp] theorem State.setMem_mem (m : Memory) : (s.setMem m).mem = m := rfl
@[simp] theorem State.setMem_disp (m : Memory) : (s.setMem m).disp = s.disp := rfl
@[simp] theorem State.setMem_faulted (m : Memory) : (s.setMem m).faulted = s.faulted := rfl
@[simp] theorem State.setMem_faultCode (m : Memory) : (s.setMem m).faultCode = s.faultCode := rfl
@[simp] theorem State.setMem_text (m : Memory) : (s.setMem m).text = s.text := rfl
@[simp] theorem State.setMem_displayOut (m : Memory) : (s.setMem m).displayOut = s.displayOut := rfl
@[simp] theorem State.setMem_publishOut (m : Memory) : (s.setMem m).publishOut = s.publishOut := rfl
@[simp] theorem State.setMem_responses (m : Memory) : (s.setMem m).responses = s.responses := rfl
@[simp] theorem State.setMem_inputs (m : Memory) : (s.setMem m).inputs = s.inputs := rfl
@[simp] theorem State.setMem_cell (m : Memory) (k : Nat) : (s.setMem m).cell k = Memory.read s.cfg m k := rfl

@[simp] theorem State.setDisp_cfg (d : DisplayRegs) : (s.setDisp d).cfg = s.cfg := rfl
@[simp] theorem State.setDisp_demod (d : DisplayRegs) : (s.setDisp d).demod = s.demod := rfl
@[simp] theorem State.setDisp_published (d : DisplayRegs) : (s.setDisp d).published = s.published := rfl
@[simp] theorem State.setDisp_publishHalf (d : DisplayRegs) : (s.setDisp d).publishHalf = s.publishHalf := rfl
@[simp] theorem State.setDisp_btn (d : DisplayRegs) : (s.setDisp d).btn = s.btn := rfl
@[simp] theorem State.setDisp_fired (d : DisplayRegs) : (s.setDisp d).fired = s.fired := rfl
@[simp] theorem State.setDisp_mem (d : DisplayRegs) : (s.setDisp d).mem = s.mem := rfl
@[simp] theorem State.setDisp_disp (d : DisplayRegs) : (s.setDisp d).disp = d := rfl
@[simp] theorem State.setDisp_faulted (d : DisplayRegs) : (s.setDisp d).faulted = s.faulted := rfl
@[simp] theorem State.setDisp_faultCode (d : DisplayRegs) : (s.setDisp d).faultCode = s.faultCode := rfl
@[simp] theorem State.setDisp_text (d : DisplayRegs) : (s.setDisp d).text = s.text := rfl
@[simp] theorem State.setDisp_displayOut (d : DisplayRegs) : (s.setDisp d).displayOut = s.displayOut := rfl
@[simp] theorem State.setDisp_publishOut (d : DisplayRegs) : (s.setDisp d).publishOut = s.publishOut := rfl
@[simp] theorem State.setDisp_responses (d : DisplayRegs) : (s.setDisp d).responses = s.responses := rfl
@[simp] theorem State.setDisp_inputs (d : DisplayRegs) : (s.setDisp d).inputs = s.inputs := rfl
@[simp] theorem State.setDisp_cell (d : DisplayRegs) (k : Nat) : (s.setDisp d).cell k = s.cell k := rfl

@[simp] theorem State.setAssembly_cfg (t : TextAssembly) : (s.setAssembly t).cfg = s.cfg := rfl
@[simp] theorem State.setAssembly_demod (t : TextAssembly) : (s.setAssembly t).demod = s.demod := rfl
@[simp] theorem State.setAssembly_published (t : TextAssembly) : (s.setAssembly t).published = s.published := rfl
@[simp] theorem State.setAssembly_publishHalf (t : TextAssembly) : (s.setAssembly t).publishHalf = s.publishHalf := rfl
@[simp] theorem State.setAssembly_btn (t : TextAssembly) : (s.setAssembly t).btn = s.btn := rfl
@[simp] theorem State.setAssembly_fired (t : TextAssembly) : (s.setAssembly t).fired = s.fired := rfl
@[simp] theorem State.setAssembly_mem (t : TextAssembly) : (s.setAssembly t).mem = s.mem := rfl
@[simp] theorem State.setAssembly_disp (t : TextAssembly) : (s.setAssembly t).disp = s.disp := rfl
@[simp] theorem State.setAssembly_faulted (t : TextAssembly) : (s.setAssembly t).faulted = s.faulted := rfl
@[simp] theorem State.setAssembly_faultCode (t : TextAssembly) : (s.setAssembly t).faultCode = s.faultCode := rfl
@[simp] theorem State.setAssembly_text (t : TextAssembly) : (s.setAssembly t).text = t := rfl
@[simp] theorem State.setAssembly_displayOut (t : TextAssembly) : (s.setAssembly t).displayOut = s.displayOut := rfl
@[simp] theorem State.setAssembly_publishOut (t : TextAssembly) : (s.setAssembly t).publishOut = s.publishOut := rfl
@[simp] theorem State.setAssembly_responses (t : TextAssembly) : (s.setAssembly t).responses = s.responses := rfl
@[simp] theorem State.setAssembly_inputs (t : TextAssembly) : (s.setAssembly t).inputs = s.inputs := rfl
@[simp] theorem State.setAssembly_cell (t : TextAssembly) (k : Nat) : (s.setAssembly t).cell k = s.cell k := rfl

@[simp] theorem State.setInputs_cfg (is : List PortInputs) : (s.setInputs is).cfg = s.cfg := rfl
@[simp] theorem State.setInputs_demod (is : List PortInputs) : (s.setInputs is).demod = s.demod := rfl
@[simp] theorem State.setInputs_published (is : List PortInputs) : (s.setInputs is).published = s.published := rfl
@[simp] theorem State.setInputs_publishHalf (is : List PortInputs) : (s.setInputs is).publishHalf = s.publishHalf := rfl
@[simp] theorem State.setInputs_btn (is : List PortInputs) : (s.setInputs is).btn = s.btn := rfl
@[simp] theorem State.setInputs_fired (is : List PortInputs) : (s.setInputs is).fired = s.fired := rfl
@[simp] theorem State.setInputs_mem (is : List PortInputs) : (s.setInputs is).mem = s.mem := rfl
@[simp] theorem State.setInputs_disp (is : List PortInputs) : (s.setInputs is).disp = s.disp := rfl
@[simp] theorem State.setInputs_faulted (is : List PortInputs) : (s.setInputs is).faulted = s.faulted := rfl
@[simp] theorem State.setInputs_faultCode (is : List PortInputs) : (s.setInputs is).faultCode = s.faultCode := rfl
@[simp] theorem State.setInputs_text (is : List PortInputs) : (s.setInputs is).text = s.text := rfl
@[simp] theorem State.setInputs_displayOut (is : List PortInputs) : (s.setInputs is).displayOut = s.displayOut := rfl
@[simp] theorem State.setInputs_publishOut (is : List PortInputs) : (s.setInputs is).publishOut = s.publishOut := rfl
@[simp] theorem State.setInputs_responses (is : List PortInputs) : (s.setInputs is).responses = s.responses := rfl
@[simp] theorem State.setInputs_inputs (is : List PortInputs) : (s.setInputs is).inputs = is := rfl
@[simp] theorem State.setInputs_cell (is : List PortInputs) (k : Nat) : (s.setInputs is).cell k = s.cell k := rfl

@[simp] theorem State.setFault_cfg (f : Bool) (c : BitVec 8) : (s.setFault f c).cfg = s.cfg := rfl
@[simp] theorem State.setFault_demod (f : Bool) (c : BitVec 8) : (s.setFault f c).demod = s.demod := rfl
@[simp] theorem State.setFault_published (f : Bool) (c : BitVec 8) : (s.setFault f c).published = s.published := rfl
@[simp] theorem State.setFault_publishHalf (f : Bool) (c : BitVec 8) : (s.setFault f c).publishHalf = s.publishHalf := rfl
@[simp] theorem State.setFault_btn (f : Bool) (c : BitVec 8) : (s.setFault f c).btn = s.btn := rfl
@[simp] theorem State.setFault_fired (f : Bool) (c : BitVec 8) : (s.setFault f c).fired = s.fired := rfl
@[simp] theorem State.setFault_mem (f : Bool) (c : BitVec 8) : (s.setFault f c).mem = s.mem := rfl
@[simp] theorem State.setFault_disp (f : Bool) (c : BitVec 8) : (s.setFault f c).disp = s.disp := rfl
@[simp] theorem State.setFault_faulted (f : Bool) (c : BitVec 8) : (s.setFault f c).faulted = f := rfl
@[simp] theorem State.setFault_faultCode (f : Bool) (c : BitVec 8) : (s.setFault f c).faultCode = c := rfl
@[simp] theorem State.setFault_text (f : Bool) (c : BitVec 8) : (s.setFault f c).text = s.text := rfl
@[simp] theorem State.setFault_displayOut (f : Bool) (c : BitVec 8) : (s.setFault f c).displayOut = s.displayOut := rfl
@[simp] theorem State.setFault_publishOut (f : Bool) (c : BitVec 8) : (s.setFault f c).publishOut = s.publishOut := rfl
@[simp] theorem State.setFault_responses (f : Bool) (c : BitVec 8) : (s.setFault f c).responses = s.responses := rfl
@[simp] theorem State.setFault_inputs (f : Bool) (c : BitVec 8) : (s.setFault f c).inputs = s.inputs := rfl
@[simp] theorem State.setFault_cell (f : Bool) (c : BitVec 8) (k : Nat) : (s.setFault f c).cell k = s.cell k := rfl

@[simp] theorem State.emitDisplay_cfg (w : DisplayWord) : (s.emitDisplay w).cfg = s.cfg := rfl
@[simp] theorem State.emitDisplay_demod (w : DisplayWord) : (s.emitDisplay w).demod = s.demod := rfl
@[simp] theorem State.emitDisplay_published (w : DisplayWord) : (s.emitDisplay w).published = s.published := rfl
@[simp] theorem State.emitDisplay_publishHalf (w : DisplayWord) : (s.emitDisplay w).publishHalf = s.publishHalf := rfl
@[simp] theorem State.emitDisplay_btn (w : DisplayWord) : (s.emitDisplay w).btn = s.btn := rfl
@[simp] theorem State.emitDisplay_fired (w : DisplayWord) : (s.emitDisplay w).fired = s.fired := rfl
@[simp] theorem State.emitDisplay_mem (w : DisplayWord) : (s.emitDisplay w).mem = s.mem := rfl
@[simp] theorem State.emitDisplay_disp (w : DisplayWord) : (s.emitDisplay w).disp = s.disp := rfl
@[simp] theorem State.emitDisplay_faulted (w : DisplayWord) : (s.emitDisplay w).faulted = s.faulted := rfl
@[simp] theorem State.emitDisplay_faultCode (w : DisplayWord) : (s.emitDisplay w).faultCode = s.faultCode := rfl
@[simp] theorem State.emitDisplay_text (w : DisplayWord) : (s.emitDisplay w).text = s.text := rfl
@[simp] theorem State.emitDisplay_displayOut (w : DisplayWord) : (s.emitDisplay w).displayOut = s.displayOut ++ [w] := rfl
@[simp] theorem State.emitDisplay_publishOut (w : DisplayWord) : (s.emitDisplay w).publishOut = s.publishOut := rfl
@[simp] theorem State.emitDisplay_responses (w : DisplayWord) : (s.emitDisplay w).responses = s.responses := rfl
@[simp] theorem State.emitDisplay_inputs (w : DisplayWord) : (s.emitDisplay w).inputs = s.inputs := rfl
@[simp] theorem State.emitDisplay_cell (w : DisplayWord) (k : Nat) : (s.emitDisplay w).cell k = s.cell k := rfl

@[simp] theorem State.emitPublish_cfg (w : PublishWord) : (s.emitPublish w).cfg = s.cfg := rfl
@[simp] theorem State.emitPublish_demod (w : PublishWord) : (s.emitPublish w).demod = s.demod := rfl
@[simp] theorem State.emitPublish_published (w : PublishWord) : (s.emitPublish w).published = s.published := rfl
@[simp] theorem State.emitPublish_publishHalf (w : PublishWord) : (s.emitPublish w).publishHalf = s.publishHalf := rfl
@[simp] theorem State.emitPublish_btn (w : PublishWord) : (s.emitPublish w).btn = s.btn := rfl
@[simp] theorem State.emitPublish_fired (w : PublishWord) : (s.emitPublish w).fired = s.fired := rfl
@[simp] theorem State.emitPublish_mem (w : PublishWord) : (s.emitPublish w).mem = s.mem := rfl
@[simp] theorem State.emitPublish_disp (w : PublishWord) : (s.emitPublish w).disp = s.disp := rfl
@[simp] theorem State.emitPublish_faulted (w : PublishWord) : (s.emitPublish w).faulted = s.faulted := rfl
@[simp] theorem State.emitPublish_faultCode (w : PublishWord) : (s.emitPublish w).faultCode = s.faultCode := rfl
@[simp] theorem State.emitPublish_text (w : PublishWord) : (s.emitPublish w).text = s.text := rfl
@[simp] theorem State.emitPublish_displayOut (w : PublishWord) : (s.emitPublish w).displayOut = s.displayOut := rfl
@[simp] theorem State.emitPublish_publishOut (w : PublishWord) : (s.emitPublish w).publishOut = s.publishOut ++ [w] := rfl
@[simp] theorem State.emitPublish_responses (w : PublishWord) : (s.emitPublish w).responses = s.responses := rfl
@[simp] theorem State.emitPublish_inputs (w : PublishWord) : (s.emitPublish w).inputs = s.inputs := rfl
@[simp] theorem State.emitPublish_cell (w : PublishWord) (k : Nat) : (s.emitPublish w).cell k = s.cell k := rfl

@[simp] theorem State.respond_cfg (w : ResponseWord) : (s.respond w).cfg = s.cfg := rfl
@[simp] theorem State.respond_demod (w : ResponseWord) : (s.respond w).demod = s.demod := rfl
@[simp] theorem State.respond_published (w : ResponseWord) : (s.respond w).published = s.published := rfl
@[simp] theorem State.respond_publishHalf (w : ResponseWord) : (s.respond w).publishHalf = s.publishHalf := rfl
@[simp] theorem State.respond_btn (w : ResponseWord) : (s.respond w).btn = s.btn := rfl
@[simp] theorem State.respond_fired (w : ResponseWord) : (s.respond w).fired = s.fired := rfl
@[simp] theorem State.respond_mem (w : ResponseWord) : (s.respond w).mem = s.mem := rfl
@[simp] theorem State.respond_disp (w : ResponseWord) : (s.respond w).disp = s.disp := rfl
@[simp] theorem State.respond_faulted (w : ResponseWord) : (s.respond w).faulted = s.faulted := rfl
@[simp] theorem State.respond_faultCode (w : ResponseWord) : (s.respond w).faultCode = s.faultCode := rfl
@[simp] theorem State.respond_text (w : ResponseWord) : (s.respond w).text = s.text := rfl
@[simp] theorem State.respond_displayOut (w : ResponseWord) : (s.respond w).displayOut = s.displayOut := rfl
@[simp] theorem State.respond_publishOut (w : ResponseWord) : (s.respond w).publishOut = s.publishOut := rfl
@[simp] theorem State.respond_responses (w : ResponseWord) : (s.respond w).responses = s.responses ++ [w] := rfl
@[simp] theorem State.respond_inputs (w : ResponseWord) : (s.respond w).inputs = s.inputs := rfl
@[simp] theorem State.respond_cell (w : ResponseWord) (k : Nat) : (s.respond w).cell k = s.cell k := rfl

end Sys2Proof.Machine
end

