-- ==== Sys2Proof/Laws/Memory.lean ====
section
/-! SUPPORT. The register files of five, and the laws of the frame buffer: read after write, and the canonical form. -/

namespace Sys2Proof.Machine

/-! ## Five -/

@[simp] theorem Five.get_ofFn {α : Type} (f : Fin 5 → α) (i : Fin 5) : (Five.ofFn f).get i = f i := by
  fin_cases i <;> rfl

theorem Five.get_set {α : Type} (f : Five α) (i j : Fin 5) (v : α) : (f.set i v).get j = if j = i then v else f.get j := by
  simp [Five.set]

@[simp] theorem Five.get_set_self {α : Type} (f : Five α) (i : Fin 5) (v : α) : (f.set i v).get i = v := by
  simp [Five.get_set]

@[ext] theorem Five.ext_get {α : Type} {f g : Five α} (h : ∀ i, f.get i = g.get i) : f = g := by
  cases f; cases g
  have h0 := h 0; have h1 := h 1; have h2 := h 2; have h3 := h 3; have h4 := h 4
  simp only [Five.get] at h0 h1 h2 h3 h4
  subst h0; subst h1; subst h2; subst h3; subst h4
  rfl

/-! ## Reading and writing one cell -/

theorem Memory.rising_cons {a : Nat} {v : Byte} {m : Memory} :
    Memory.rising ((a, v) :: m) = true ↔ (∀ p ∈ m, a < p.1) ∧ Memory.rising m = true := by
  simp [Memory.rising]

/-- An offset below every listed one is not listed. -/
theorem Memory.read_of_below (c : Config) {m : Memory} {k : Nat} (h : ∀ p ∈ m, k < p.1) :
    Memory.read c m k = c.fbResetAt k := by
  induction m with
  | nil => rfl
  | cons p m ih =>
    obtain ⟨a, v⟩ := p
    have ha : k < a := h (a, v) (by simp)
    rw [Memory.read, if_neg (by omega), ih fun q hq => h q (by simp [hq])]

theorem Memory.read_insert (c : Config) (m : Memory) (k j : Nat) (v : Byte) :
    Memory.read c (Memory.insert m k v) j = if j = k then v else Memory.read c m j := by
  induction m with
  | nil => simp [Memory.insert, Memory.read]
  | cons p m ih =>
    obtain ⟨a, w⟩ := p
    by_cases hka : k = a
    · subst hka
      by_cases hj : j = k <;> simp [Memory.insert, Memory.read, hj]
    · by_cases hlt : k < a
      · simp [Memory.insert, Memory.read, hka, hlt]
      · by_cases hj : j = a
        · subst hj
          simp [Memory.insert, Memory.read, hka, hlt, Ne.symm hka]
        · simp [Memory.insert, Memory.read, hka, hlt, hj, ih]

theorem Memory.read_erase (c : Config) {m : Memory} (h : Memory.rising m = true) (k j : Nat) :
    Memory.read c (Memory.erase m k) j = if j = k then c.fbResetAt k else Memory.read c m j := by
  induction m with
  | nil => by_cases hj : j = k <;> simp [Memory.erase, Memory.read, hj]
  | cons p m ih =>
    obtain ⟨a, w⟩ := p
    obtain ⟨hlo, hm⟩ := Memory.rising_cons.mp h
    by_cases hka : k = a
    · subst hka
      by_cases hj : j = k
      · subst hj
        simp [Memory.erase, Memory.read_of_below c hlo]
      · simp [Memory.erase, Memory.read, hj]
    · by_cases hlt : k < a
      · by_cases hj : j = k
        · subst hj
          have hb : ∀ p ∈ (a, w) :: m, j < p.1 := by
            intro p hp
            rcases List.mem_cons.mp hp with rfl | hp
            · exact hlt
            · exact Nat.lt_trans hlt (hlo p hp)
          simp [Memory.erase, hka, hlt, Memory.read_of_below c hb]
        · simp [Memory.erase, hka, hlt, hj]
      · by_cases hj : j = a
        · subst hj
          simp [Memory.erase, Memory.read, hka, hlt, Ne.symm hka]
        · simp [Memory.erase, Memory.read, hka, hlt, hj, ih hm]

/-- Read after write, the same cell and every other one. -/
theorem Memory.read_write (c : Config) {m : Memory} (h : Memory.rising m = true) (k j : Nat) (v : Byte) :
    Memory.read c (Memory.write c m k v) j = if j = k then v else Memory.read c m j := by
  by_cases hv : v = c.fbResetAt k
  · rw [Memory.write, if_pos hv, Memory.read_erase c h]
    by_cases hj : j = k <;> simp [hj, hv]
  · rw [Memory.write, if_neg hv, Memory.read_insert]

/-! ## The canonical form -/

theorem Memory.mem_erase {m : Memory} {k : Nat} {p : Host.Cell} (h : p ∈ Memory.erase m k) : p ∈ m := by
  induction m with
  | nil => simp [Memory.erase] at h
  | cons q m ih =>
    obtain ⟨a, w⟩ := q
    simp only [Memory.erase] at h
    split at h
    · exact List.mem_cons_of_mem _ h
    · split at h
      · exact h
      · rcases List.mem_cons.mp h with rfl | h
        · simp
        · exact List.mem_cons_of_mem _ (ih h)

theorem Memory.mem_insert {m : Memory} {k : Nat} {v : Byte} {p : Host.Cell} (h : p ∈ Memory.insert m k v) :
    p = (k, v) ∨ p ∈ m := by
  induction m with
  | nil => simpa [Memory.insert] using h
  | cons q m ih =>
    obtain ⟨a, w⟩ := q
    simp only [Memory.insert] at h
    split at h
    · rcases List.mem_cons.mp h with rfl | h
      · exact .inl rfl
      · exact .inr (List.mem_cons_of_mem _ h)
    · split at h
      · rcases List.mem_cons.mp h with rfl | h
        · exact .inl rfl
        · exact .inr h
      · rcases List.mem_cons.mp h with rfl | h
        · exact .inr (by simp)
        · exact (ih h).imp id (List.mem_cons_of_mem _)

theorem Memory.rising_erase {m : Memory} (k : Nat) (h : Memory.rising m = true) :
    Memory.rising (Memory.erase m k) = true := by
  induction m with
  | nil => rfl
  | cons q m ih =>
    obtain ⟨a, w⟩ := q
    obtain ⟨hlo, hm⟩ := Memory.rising_cons.mp h
    simp only [Memory.erase]
    split
    · exact hm
    · split
      · exact h
      · exact Memory.rising_cons.mpr ⟨fun p hp => hlo p (Memory.mem_erase hp), ih hm⟩

theorem Memory.rising_insert {m : Memory} (k : Nat) (v : Byte) (h : Memory.rising m = true) :
    Memory.rising (Memory.insert m k v) = true := by
  induction m with
  | nil => simp [Memory.insert, Memory.rising]
  | cons q m ih =>
    obtain ⟨a, w⟩ := q
    obtain ⟨hlo, hm⟩ := Memory.rising_cons.mp h
    simp only [Memory.insert]
    split
    · rename_i hka
      subst hka
      exact Memory.rising_cons.mpr ⟨hlo, hm⟩
    · split
      · rename_i hlt
        refine Memory.rising_cons.mpr ⟨fun p hp => ?_, h⟩
        rcases List.mem_cons.mp hp with rfl | hp
        · exact hlt
        · exact Nat.lt_trans hlt (hlo p hp)
      · refine Memory.rising_cons.mpr ⟨fun p hp => ?_, ih hm⟩
        rcases Memory.mem_insert hp with rfl | hp
        · simp only; omega
        · exact hlo p hp

theorem Memory.wf_iff {c : Config} {m : Memory} :
    Memory.wf c m = true ↔ Memory.rising m = true ∧ ∀ p ∈ m, p.1 < c.cells ∧ p.2 ≠ c.fbResetAt p.1 := by
  simp [Memory.wf]

/-- A write to a cell that exists keeps the canonical form. -/
theorem Memory.wf_write {c : Config} {m : Memory} {k : Nat} (v : Byte) (hk : k < c.cells) (h : Memory.wf c m = true) :
    Memory.wf c (Memory.write c m k v) = true := by
  obtain ⟨hr, hall⟩ := Memory.wf_iff.mp h
  rw [Memory.wf_iff, Memory.write]
  split
  · exact ⟨Memory.rising_erase k hr, fun p hp => hall p (Memory.mem_erase hp)⟩
  · rename_i hv
    refine ⟨Memory.rising_insert k v hr, fun p hp => ?_⟩
    rcases Memory.mem_insert hp with rfl | hp
    · exact ⟨hk, hv⟩
    · exact hall p hp

/-- The copy of a `SETTEXT` keeps the canonical form. -/
theorem Memory.wf_copyText {c : Config} (bytes : List Byte) :
    ∀ {m : Memory} (off : Nat), Memory.wf c m = true → Memory.wf c (Memory.copyText c m off bytes) = true := by
  induction bytes with
  | nil => intro m off h; exact h
  | cons b bs ih =>
    intro m off h
    rw [Memory.copyText]
    refine ih (off + 1) ?_
    split
    · rename_i hoff
      exact Memory.wf_write b hoff h
    · exact h

/-- What the copy of a `SETTEXT` leaves in each cell (R152, R154). -/
theorem Memory.read_copyText {c : Config} (bytes : List Byte) :
    ∀ {m : Memory} (off : Nat), Memory.wf c m = true → ∀ k, Memory.read c (Memory.copyText c m off bytes) k =
      if h : off ≤ k ∧ k - off < bytes.length ∧ k < c.cells then bytes[k - off]'h.2.1 else Memory.read c m k := by
  induction bytes with
  | nil => intro m off _ k; simp [Memory.copyText]
  | cons b bs ih =>
    intro m off h k
    have hstep : Memory.wf c (if off < c.cells then Memory.write c m off b else m) = true := by
      split
      · rename_i hoff
        exact Memory.wf_write b hoff h
      · exact h
    have hhead : Memory.read c (if off < c.cells then Memory.write c m off b else m) k =
        if k = off ∧ k < c.cells then b else Memory.read c m k := by
      split
      · rename_i hoff
        rw [Memory.read_write c (Memory.wf_iff.mp h).1]
        by_cases hk : k = off <;> simp [hk, hoff]
      · rename_i hoff
        rw [if_neg (by omega)]
    rw [Memory.copyText, ih (off + 1) hstep k, hhead]
    rcases Nat.lt_trichotomy k off with hlt | heq | hgt
    · rw [dif_neg (by omega), dif_neg (by omega), if_neg (by omega)]
    · subst heq
      by_cases hk : k < c.cells <;> simp [hk]
    · by_cases hin : k - (off + 1) < bs.length ∧ k < c.cells
      · obtain ⟨n, hn⟩ : ∃ n, k - off = n + 1 := ⟨k - off - 1, by omega⟩
        have hn' : k - (off + 1) = n := by omega
        rw [dif_pos ⟨by omega, hin⟩, dif_pos ⟨by omega, by simp; omega, hin.2⟩]
        simp [hn, hn']
      · rw [dif_neg (by omega), dif_neg (by simp; omega), if_neg (by omega)]

end Sys2Proof.Machine
end

