-- ==== Sys2Proof/Laws/Ops.lean ====
section
/-! SUPPORT. One lemma per shared operation, saying once what it can do: faults, host events, publishing, the display
step, the debounce step, the words out, and the next event of a trace. -/

namespace Sys2Proof

/-! ## The frame buffer's size -/

theorem Config.cells_pos (c : Config) : 0 < c.cells :=
  Nat.mul_pos (by have := c.width_legal; omega) (by have := c.height_legal; omega)

theorem Config.cells_lt (c : Config) : c.cells < 2 ^ 16 := by
  have hw := c.width_legal
  have hh := c.height_legal
  have h : c.width * c.height ≤ 255 * 255 := Nat.mul_le_mul hw.2 hh.2
  unfold Config.cells
  omega

end Sys2Proof

namespace Sys2Proof.Machine

variable {s t : State}

/-! ## Faults -/

theorem unlessFaulted_of_faulted (h : s.faulted = true) (f : State → State) : unlessFaulted s f = s := by
  simp [unlessFaulted, h]

theorem unlessFaulted_of_good (h : s.faulted = false) (f : State → State) : unlessFaulted s f = f s := by
  simp [unlessFaulted, h]

theorem raise_of_faulted (h : s.faulted = true) (f : FaultKind) : raise f s = s := by simp [raise, h]

theorem raise_of_good (h : s.faulted = false) (f : FaultKind) : raise f s = s.setFault true f.code := by
  simp [raise, h]

/-- `raise` leaves every field but the two it writes. -/
theorem raise_keeps (f : FaultKind) (s : State) :
    (raise f s).setFault s.faulted s.faultCode = s := by
  unfold raise
  split <;> rfl

theorem raiseBadSequence_of_good (h : s.faulted = false) :
    raiseBadSequence s = (s.setFault true 0x02).setAssembly .none := by
  simp [raiseBadSequence, raise, h, FaultKind.code]

theorem hostEvent_of_faulted (h : s.faulted = true) (f : State → State) : hostEvent s f = s := by
  simp [hostEvent, unlessFaulted, h]

theorem hostEvent_of_ready (h : s.faulted = false) (hn : s.text.need = 0) (f : State → State) : hostEvent s f = f s := by
  simp [hostEvent, unlessFaulted, h, hn]

theorem hostEvent_of_owed (h : s.faulted = false) (hn : s.text.need ≠ 0) (f : State → State) :
    hostEvent s f = raiseBadSequence s := by
  simp [hostEvent, unlessFaulted, h, hn]

/-- A fault code is never 0. -/
theorem FaultKind.code_ne_zero (f : FaultKind) : f.code ≠ 0 := by
  cases f with
  | arithRange reg => cases reg <;> simp [FaultKind.code, ArithReg.code]
  | illegalWord => simp [FaultKind.code]
  | badSequence => simp [FaultKind.code]
  | badIndex idx => simp [FaultKind.code]

/-! ## Exact results in registers -/

theorem toInt_ofInt64 {v : Int} (h : fitsI64 v = true) : (BitVec.ofInt 64 v).toInt = v := by
  simp only [fitsI64, decide_eq_true_eq] at h
  rw [BitVec.toInt_ofInt]
  exact Int.bmod_eq_of_le (by omega) (by omega)

theorem toInt_ofInt32 {v : Int} (h : fitsI32 v = true) : (BitVec.ofInt 32 v).toInt = v := by
  simp only [fitsI32, decide_eq_true_eq] at h
  rw [BitVec.toInt_ofInt]
  exact Int.bmod_eq_of_le (by omega) (by omega)

theorem toNat_ofNat32 {v : Nat} (h : fitsU32 v = true) : (BitVec.ofNat 32 v).toNat = v := by
  simp only [fitsU32, decide_eq_true_eq] at h
  rw [BitVec.toNat_ofNat]
  omega

/-- Nothing overflows exactly when all four values fit (R124). -/
theorem Accumulated.overflow_eq_none {a : Accumulated} :
    a.overflow = none ↔ fitsI64 a.acc = true ∧ fitsI64 a.ps = true ∧ fitsI64 a.ns = true ∧ fitsU32 a.sc = true := by
  unfold Accumulated.overflow
  cases fitsI64 a.acc <;> cases fitsI64 a.ps <;> cases fitsI64 a.ns <;> cases fitsU32 a.sc <;> simp

/-- The polarity is written as the pattern of `+1` or of `-1`. -/
theorem polarityOf_cases (ps ns : Int) : BitVec.ofInt 8 (polarityOf ps ns) = 1 ∨ BitVec.ofInt 8 (polarityOf ps ns) = -1 := by
  unfold polarityOf
  split
  · exact .inl (by decide)
  · exact .inr (by decide)

/-! ## The display step -/

/-- Everything the display step can do. -/
theorem displayAdvance_cases (h : displayAdvance s = .next t) :
    (s.disp.stage = .idle ∧ s.disp.dirty = false ∧ t = s) ∨
    (s.disp.stage = .idle ∧ s.disp.dirty = true ∧ t = s.setDisp ⟨0, .positionRow, false⟩) ∨
    (s.disp.stage = .positionRow ∧ s.disp.cursor.toNat < s.cfg.cells ∧ t = displayPositionRow s) ∨
    (s.disp.stage = .positionColumn ∧ s.disp.cursor.toNat < s.cfg.cells ∧ t = displayPositionColumn s) ∨
    (s.disp.stage = .emit ∧ s.disp.cursor.toNat < s.cfg.cells ∧ t = displayEmit s) := by
  unfold displayAdvance atCursor at h
  cases hs : s.disp.stage <;> simp only [hs] at h
  · cases hd : s.disp.dirty <;> simp [displayIdle, hd] at h <;> simp [h]
  all_goals
    split at h
    · rename_i hc
      simp only [Host.Outcome.next.injEq] at h
      simp [hc, h]
    · exact absurd h (by simp)

/-- When the display step completes. -/
theorem displayAdvance_next (h : s.cursorReady) : ∃ t, displayAdvance s = .next t := by
  unfold displayAdvance atCursor
  cases hs : s.disp.stage
  · exact ⟨_, rfl⟩
  all_goals
    have hc : s.disp.cursor.toNat < s.cfg.cells := h.resolve_left (by simp [hs])
    simp [hc]

/-- The display step writes the display registers and the display port, nothing else (R142). -/
theorem displayAdvance_frame (h : displayAdvance s = .next t) :
    t = { s with disp := t.disp, displayOut := t.displayOut } := by
  rcases displayAdvance_cases h with ⟨_, _, rfl⟩ | ⟨_, _, rfl⟩ | ⟨_, _, rfl⟩ | ⟨_, _, rfl⟩ | ⟨_, _, rfl⟩ <;> rfl

/-- Everything `TICK` can do on an unfaulted block. -/
theorem execTick_cases {mask : BitVec 5} (hf : s.faulted = false) (h : execTick mask s = .next t) :
    ∃ u, displayAdvance s = .next u ∧ t = debounceAdvance mask u := by
  rw [execTick, hf] at h
  simp only [Bool.false_eq_true, if_false, tickEffect] at h
  cases hd : displayAdvance s with
  | next u => exact ⟨u, rfl, by simpa [hd] using h.symm⟩
  | fault f => simp [hd] at h
  | refused r => simp [hd] at h

/-! ## The debounce step -/

/-- A threshold fits a `u32` and is at least 1 (R5). -/
theorem stageThreshold_range (c : Config) (st : ButtonStage) : 1 ≤ stageThreshold c st ∧ stageThreshold c st ≤ 2 ^ 32 - 1 := by
  cases st
  · exact c.onThreshold_legal
  · exact c.repeatDelay_legal
  · exact c.repeatPeriod_legal

/-- A held tick short of the threshold stores the incremented count: it fits (R192). -/
theorem buttonAdvance_count {c : Config} {b : ButtonState} (h : b.holdTicks.toNat + 1 < stageThreshold c b.stage) :
    buttonAdvance c true b = { b with holdTicks := BitVec.ofNat 32 (b.holdTicks.toNat + 1) } ∧
      (BitVec.ofNat 32 (b.holdTicks.toNat + 1)).toNat = b.holdTicks.toNat + 1 := by
  have hmax := (stageThreshold_range c b.stage).2
  refine ⟨?_, ?_⟩
  · simp [buttonAdvance, buttonEvent, Nat.not_le.mpr h]
  · rw [BitVec.toNat_ofNat]
    omega

/-- A held tick at the threshold is an event (R183 to R185). -/
theorem buttonAdvance_event {c : Config} {b : ButtonState} (h : stageThreshold c b.stage ≤ b.holdTicks.toNat + 1) :
    buttonAdvance c true b = { b with holdTicks := 0, stage := stageAfterEvent b.stage } := by
  simp [buttonAdvance, buttonEvent, h]

@[simp] theorem debounceAdvance_btn (mask : BitVec 5) (s : State) (i : Fin 5) :
    (debounceAdvance mask s).btn.get i = buttonAdvance s.cfg (isHeld mask i) (s.btn.get i) := by
  simp [debounceAdvance]

@[simp] theorem debounceAdvance_fired (mask : BitVec 5) (s : State) (i : Fin 5) :
    (debounceAdvance mask s).fired.get i = (s.fired.get i || buttonEvent s.cfg (isHeld mask i) (s.btn.get i)) := by
  simp [debounceAdvance, surfaceEvents]

/-- The debounce step writes the buttons and the fired flags, nothing else (R142). -/
theorem debounceAdvance_frame (mask : BitVec 5) (s : State) :
    debounceAdvance mask s = { s with btn := (debounceAdvance mask s).btn, fired := (debounceAdvance mask s).fired } := rfl

/-- No button's step touches `press_count` (R193). -/
@[simp] theorem buttonAdvance_pressCount (c : Config) (held : Bool) (b : ButtonState) :
    (buttonAdvance c held b).pressCount = b.pressCount := by
  cases held
  · rfl
  · unfold buttonAdvance
    split
    · split <;> rfl
    · rfl

/-! ## The next event of a trace -/

/-- Nothing is left to present exactly when no port asserts `valid`. -/
theorem PortInputs.take_eq_none {p : PortInputs} : p.take = none ↔ p = {} := by
  obtain ⟨r, sm, tk, h⟩ := p
  cases r <;> cases sm <;> cases tk <;> cases h <;> simp [PortInputs.take]

/-- A step either performs a word, settles a publish first, or has nothing to perform. -/
theorem step_cases (s : State) :
    (∃ rest, fetch s.inputs = .nothing rest ∧ step s = .next ((settlePublish s).setInputs rest)) ∨
    (∃ port e rest, fetch s.inputs = .word port e rest ∧ publishOpen s = true ∧ fallsBetween e = false ∧
      step s = .next (settlePublish s)) ∨
    (∃ port e rest, fetch s.inputs = .word port e rest ∧ (publishOpen s = false ∨ fallsBetween e = true) ∧
      step s = perform port e (s.setInputs rest)) := by
  unfold step
  cases hf : fetch s.inputs with
  | nothing rest => exact .inl ⟨rest, rfl, rfl⟩
  | word port e rest =>
    cases ho : publishOpen s <;> cases hb : fallsBetween e
    · exact .inr (.inr ⟨port, e, rest, rfl, .inl rfl, by simp⟩)
    · exact .inr (.inr ⟨port, e, rest, rfl, .inl rfl, by simp⟩)
    · exact .inr (.inl ⟨port, e, rest, rfl, rfl, hb, by simp [hb]⟩)
    · exact .inr (.inr ⟨port, e, rest, rfl, .inr hb, by simp [hb]⟩)

/-- Everything the second step of a publish can do. -/
theorem settlePublish_cases (s : State) :
    (settlePublish s = s ∧ publishOpen s = false) ∨
    (∃ p, s.publishHalf = some p ∧ s.faulted = false ∧ settlePublish s = finishPublish p s) := by
  unfold settlePublish publishOpen
  cases hp : s.publishHalf with
  | none => exact .inl ⟨rfl, rfl⟩
  | some p =>
    cases hf : s.faulted
    · exact .inr ⟨p, rfl, rfl, unlessFaulted_of_good hf _⟩
    · exact .inl ⟨unlessFaulted_of_faulted hf _, rfl⟩

/-- Everything a presented word can do (R222). -/
theorem perform_cases {port : InPort} {e : EventWord} (h : perform port e s = .next t) :
    (∃ r, decode e = .error r ∧ t = raise .illegalWord s) ∨
    (∃ i, decode e = .ok i ∧ breaksText port i s = true ∧ t = raiseBadSequence s) ∨
    (∃ i, decode e = .ok i ∧ breaksText port i s = false ∧ exec i s = .next t) := by
  unfold perform at h
  cases hd : decode e with
  | error r => exact .inl ⟨r, rfl, by simpa [hd] using h.symm⟩
  | ok i =>
    simp only [hd] at h
    cases hb : breaksText port i s
    · exact .inr (.inr ⟨i, rfl, hb, by simpa [hb] using h⟩)
    · exact .inr (.inl ⟨i, rfl, hb, by simpa [hb] using h.symm⟩)

end Sys2Proof.Machine
end

