-- ==== Sys2Proof/Laws/Exec.lean ====
section
/-! SUPPORT. What an event can do, said once for all events (`Performed`), and the way from events to steps: what every
event, every fault and the second step of a publish keep, a step keeps (`step_keeps`). -/

namespace Sys2Proof.Machine

/-- Everything the event `i` can make of the state `s`. -/
inductive Performed : Instr → State → State → Prop where
  | reset (s : State) : Performed .reset s (resetBlock s)
  /-- A faulted block ignores every event but `RESET` (R200). -/
  | ignored (i : Instr) (s : State) (hi : i ≠ .reset) (hf : s.faulted = true) : Performed i s s
  /-- `ArithRange` or `BadIndex` (R203, R204). -/
  | raised (i : Instr) (s : State) (f : FaultKind) (hf : s.faulted = false) : Performed i s (s.setFault true f.code)
  /-- `BadSequence` (R202). -/
  | badSequence (i : Instr) (s : State) (hi : i.agent = .host) (hf : s.faulted = false) :
      Performed i s ((s.setFault true 0x02).setAssembly .none)
  /-- A sample that publishes nothing (R115). -/
  | accumulated (s : State) (raw : Int) (gate : Bool) (hf : s.faulted = false)
      (hfit : (accumulate s.cfg s.demod raw gate).overflow = none)
      (hdue : publishDue s.cfg (accumulate s.cfg s.demod raw gate) = false) :
      Performed (.sample raw gate) s (s.setDemod (accumulate s.cfg s.demod raw gate).registers)
  /-- A sample that publishes (R121). -/
  | published (s : State) (raw : Int) (gate : Bool) (q : Int) (hf : s.faulted = false)
      (hfit : (accumulate s.cfg s.demod raw gate).overflow = none)
      (hdue : publishDue s.cfg (accumulate s.cfg s.demod raw gate) = true)
      (hq : q = tdiv (accumulate s.cfg s.demod raw gate).acc (accumulate s.cfg s.demod raw gate).sc)
      (hqfit : fitsI32 q = true) :
      Performed (.sample raw gate) s (publish (accumulate s.cfg s.demod raw gate) q s)
  | ticked (s u : State) (mask : BitVec 5) (hf : s.faulted = false) (hd : displayAdvance s = .next u) :
      Performed (.tick mask) s (debounceAdvance mask u)
  | emptyText (s : State) (row col : Nat) (hf : s.faulted = false) (hn : s.text.need = 0) :
      Performed (.settext row col 0) s (performText row col [] s)
  | textOpened (s : State) (row col len : Nat) (hf : s.faulted = false) (hn : s.text.need = 0) (hlen : len ≠ 0) :
      Performed (.settext row col len) s (s.setAssembly ⟨row, col, len, []⟩)
  | byteAppended (s : State) (byte : Byte) (n : Nat) (hf : s.faulted = false) (hn : s.text.need = n + 2) :
      Performed (.textdata byte) s (s.setAssembly { s.text with need := n + 1, bytes := s.text.bytes ++ [byte] })
  | textPerformed (s : State) (byte : Byte) (hf : s.faulted = false) (hn : s.text.need = 1) :
      Performed (.textdata byte) s (performText s.text.row s.text.col (s.text.bytes ++ [byte]) (s.setAssembly .none))
  | magnitudeRead (s : State) (hf : s.faulted = false) (hn : s.text.need = 0) :
      Performed .rdmag s (s.respond s.published.magnitude)
  | polarityRead (s : State) (hf : s.faulted = false) (hn : s.text.need = 0) :
      Performed .rdpol s (s.respond (polarityResponse s.published.polarity))
  | firedRead (s : State) (i : Fin 5) (hf : s.faulted = false) (hn : s.text.need = 0) :
      Performed (.rdfired i.val) s (clearFired (s.respond (firedResponse (s.fired.get i))) i)

/-- What a host event does: nothing on a faulted block, `BadSequence` while data words are owed, else its effect. -/
theorem hostEvent_performed {i : Instr} (s : State) (f : State → State) (hi : i.agent = .host)
    (h : s.faulted = false → s.text.need = 0 → Performed i s (f s)) : Performed i s (hostEvent s f) := by
  cases hf : s.faulted
  · by_cases hn : s.text.need = 0
    · rw [hostEvent_of_ready hf hn]
      exact h hf hn
    · rw [hostEvent_of_owed hf hn, raiseBadSequence_of_good hf]
      exact .badSequence i s hi hf
  · rw [hostEvent_of_faulted hf]
    exact .ignored i s (by rintro rfl; simp [Instr.agent] at hi) hf

theorem execSample_performed (raw : Int) (gate : Bool) (s : State) :
    Performed (.sample raw gate) s (unlessFaulted s (sampleEffect raw gate)) := by
  cases hf : s.faulted
  · rw [unlessFaulted_of_good hf]
    simp only [sampleEffect]
    cases ho : (accumulate s.cfg s.demod raw gate).overflow with
    | some reg =>
      simp only [raise_of_good hf]
      exact .raised _ s (.arithRange reg) hf
    | none =>
      cases hd : publishDue s.cfg (accumulate s.cfg s.demod raw gate)
      · simpa using .accumulated s raw gate hf ho hd
      · simp only [if_true]
        split
        · exact .published s raw gate _ hf ho hd rfl ‹_›
        · rw [raise_of_good hf]
          exact .raised _ s (.arithRange .magnitude) hf
  · rw [unlessFaulted_of_faulted hf]
    exact .ignored _ s (by simp) hf

theorem execTextdata_performed (byte : Byte) (s : State) :
    Performed (.textdata byte) s (unlessFaulted s (textdataEffect byte)) := by
  cases hf : s.faulted
  · rw [unlessFaulted_of_good hf, textdataEffect]
    split
    · rw [raiseBadSequence_of_good hf]
      exact .badSequence _ s rfl hf
    · exact .textPerformed s byte hf ‹_›
    · exact .byteAppended s byte _ hf ‹_›
  · rw [unlessFaulted_of_faulted hf]
    exact .ignored _ s (by simp) hf

/-- The inversion lemma of `exec`: an event that answers a next state is one of the cases of `Performed`. -/
theorem exec_performed {i : Instr} {s t : State} (h : exec i s = .next t) : Performed i s t := by
  cases i with
  | reset =>
    obtain rfl := Host.Outcome.next.inj h
    exact .reset s
  | sample raw gate =>
    obtain rfl := Host.Outcome.next.inj h
    exact execSample_performed raw gate s
  | tick mask =>
    cases hf : s.faulted
    · obtain ⟨u, hu, rfl⟩ := execTick_cases hf h
      exact .ticked s u mask hf hu
    · obtain rfl : s = t := by simpa [exec, execTick, hf] using h
      exact .ignored _ s (by simp) hf
  | settext row col len =>
    obtain rfl := Host.Outcome.next.inj h
    refine hostEvent_performed s _ rfl fun hf hn => ?_
    split
    · rename_i hlen
      subst hlen
      exact .emptyText s row col hf hn
    · exact .textOpened s row col len hf hn ‹_›
  | textdata byte =>
    obtain rfl := Host.Outcome.next.inj h
    exact execTextdata_performed byte s
  | rdmag =>
    obtain rfl := Host.Outcome.next.inj h
    exact hostEvent_performed s _ rfl (.magnitudeRead s)
  | rdpol =>
    obtain rfl := Host.Outcome.next.inj h
    exact hostEvent_performed s _ rfl (.polarityRead s)
  | rdfired idx =>
    obtain rfl := Host.Outcome.next.inj h
    refine hostEvent_performed s _ rfl fun hf hn => ?_
    rw [rdfiredEffect]
    split
    · rename_i hidx
      exact .firedRead s ⟨idx, hidx⟩ hf hn
    · rw [raise_of_good hf]
      exact .raised _ s (.badIndex idx) hf

/-- From events to steps. A predicate is kept by every step if it says nothing of `inputs` and is kept by raising a fault,
by `BadSequence`, by the second step of a publish, and by every event that a step can perform: one whose word decodes to it,
and, if it is a `SAMPLE`, with no publish half done. -/
theorem step_keeps {P : State → Prop}
    (hinputs : ∀ s is, P s → P (s.setInputs is))
    (hraise : ∀ s f, s.faulted = false → P s → P (s.setFault true (FaultKind.code f)))
    (hbad : ∀ s, s.faulted = false → P s → P ((s.setFault true 0x02).setAssembly .none))
    (hfinish : ∀ s p, s.publishHalf = some p → s.faulted = false → P s → P (finishPublish p s))
    (hevent : ∀ i s t, (∃ e, decode e = .ok i) → (i.agent = .sampling → s.faulted = false → s.publishHalf = none) →
      P s → exec i s = .next t → P t)
    {s t : State} (hs : P s) (h : step s = .next t) : P t := by
  have hsettle : P (settlePublish s) := by
    rcases settlePublish_cases s with ⟨heq, _⟩ | ⟨p, hp, hf, heq⟩
    · rwa [heq]
    · rw [heq]
      exact hfinish s p hp hf hs
  rcases step_cases s with ⟨rest, _, heq⟩ | ⟨port, e, rest, _, _, _, heq⟩ | ⟨port, e, rest, _, ho, heq⟩
  · obtain rfl := Host.Outcome.next.inj (heq.symm.trans h)
    exact hinputs _ _ hsettle
  · obtain rfl := Host.Outcome.next.inj (heq.symm.trans h)
    exact hsettle
  · have hs' : P (s.setInputs rest) := hinputs _ _ hs
    rcases perform_cases (heq.symm.trans h) with ⟨r, _, rfl⟩ | ⟨i, _, _, rfl⟩ | ⟨i, hd, _, hx⟩
    · cases hf : (s.setInputs rest).faulted
      · rw [raise_of_good hf]
        exact hraise _ _ hf hs'
      · rwa [raise_of_faulted hf]
    · cases hf : (s.setInputs rest).faulted
      · rw [raiseBadSequence_of_good hf]
        exact hbad _ hf hs'
      · rwa [raiseBadSequence, if_pos hf]
    · refine hevent i _ t ⟨e, hd⟩ (fun ha hf => ?_) hs' hx
      have hfalls : fallsBetween e = false := by simp [fallsBetween, hd, ha]
      have hopen : publishOpen s = false := ho.resolve_right (by simp [hfalls])
      simp only [State.setInputs_faulted, State.setInputs_publishHalf] at hf ⊢
      simpa [publishOpen, hf] using hopen

/-- One step more of a run. -/
theorem run_succ {M : Host.Core} {s u : M.State} (n : Nat) (h : M.step s = .next u) : M.run (n + 1) s = M.run n u := by
  simp only [Host.Core.run, h]

end Sys2Proof.Machine
end

