-- ==== Sys2Proof/Laws/Words.lean ====
section
/-! SUPPORT. The fields of the event word and of the words out. -/

namespace Sys2Proof

/-! ## Event words (R81) -/

theorem eventWord_toNat {op arg : Nat} (hop : op < 2 ^ 8) (harg : arg < 2 ^ 32) :
    (eventWord op arg).toNat = op * 2 ^ 32 + arg := by
  rw [eventWord, BitVec.toNat_ofNat]
  omega

/-- The `op` of an assembled word. -/
theorem field_op_eventWord {op arg : Nat} (hop : op < 2 ^ 8) (harg : arg < 2 ^ 32) :
    field (eventWord op arg) 39 32 = op := by
  rw [field, eventWord_toNat hop harg]
  omega

/-- A field of the `arg` of an assembled word. -/
theorem field_arg_eventWord {op arg hi lo : Nat} (hop : op < 2 ^ 8) (harg : arg < 2 ^ 32) (hlo : lo ≤ hi) (hhi : hi < 32) :
    field (eventWord op arg) hi lo = arg / 2 ^ lo % 2 ^ (hi + 1 - lo) := by
  rw [field, eventWord_toNat hop harg]
  obtain ⟨k, hk⟩ : ∃ k, 32 = (hi + 1 - lo) + k + lo := ⟨31 - hi, by omega⟩
  have hsplit : op * 2 ^ 32 + arg = arg + 2 ^ lo * (2 ^ (hi + 1 - lo) * (2 ^ k * op)) := by
    rw [hk, Nat.pow_add, Nat.pow_add]
    ring
  rw [hsplit, Nat.add_mul_div_left _ _ (by positivity), Nat.add_mul_mod_self_left]

/-- A word whose reserved bits are zero decodes to its event. -/
theorem whenZero_zero (i : Instr) : whenZero 0 i = .ok i := rfl

theorem whenZero_ok {n : Nat} {i j : Instr} (h : whenZero n i = .ok j) : n = 0 ∧ j = i := by
  unfold whenZero at h
  split at h
  · exact ⟨‹_›, by simpa using h.symm⟩
  · exact absurd h (by simp)

namespace Machine

/-! ## Words out (R93, R94) -/

/-- The row and the column of an existing cell fit the bytes of a display word (R93). -/
theorem cell_fields_fit {c : Config} {k : Nat} (h : k < c.cells) : rowOf c k < 256 ∧ colOf c k < 256 := by
  have hw := c.width_legal
  have hh := c.height_legal
  have hrow : rowOf c k < c.height := Nat.div_lt_of_lt_mul h
  have hcol : colOf c k < c.width := Nat.mod_lt _ (by omega)
  omega

/-- The number a publish word is. -/
theorem publishWord_toNat (p : BitVec 8) (q : BitVec 32) : (publishWord p q).toNat = p.toNat * 2 ^ 32 + q.toNat := by
  rw [publishWord, BitVec.toNat_append, ← Nat.shiftLeft_add_eq_or_of_lt q.isLt, Nat.shiftLeft_eq]

end Machine

end Sys2Proof
end

