-- ==== Sys2Proof/Laws/PerInstr.lean ====
section
/-! SUPPORT. The family OpByte: the first byte of a well-formed event's word is the event's `op` (R82), one lemma per
constructor. -/

namespace Sys2Proof.Laws.OpByte

/-- The `op` field of the encoding is the one of R82. -/
def Statement (i : Instr) : Prop := i.wellFormed = true → field (encode i) 39 32 = i.op

theorem reset : Statement .reset := fun _ => field_op_eventWord (by decide) (by decide)

theorem sample (raw : Int) (gate : Bool) : Statement (.sample raw gate) := fun _ => by
  cases gate <;> exact field_op_eventWord (by decide) (BitVec.isLt _)

theorem tick (mask : BitVec 5) : Statement (.tick mask) := fun _ => by
  have h := mask.isLt
  exact field_op_eventWord (by decide) (by omega)

theorem settext (row col len : Nat) : Statement (.settext row col len) := fun h => by
  simp only [Instr.wellFormed, isU8, Bool.and_eq_true, decide_eq_true_eq] at h
  exact field_op_eventWord (by decide) (by omega)

theorem textdata (byte : Byte) : Statement (.textdata byte) := fun _ => by
  have h := byte.isLt
  exact field_op_eventWord (by decide) (by omega)

theorem rdmag : Statement .rdmag := fun _ => field_op_eventWord (by decide) (by decide)

theorem rdpol : Statement .rdpol := fun _ => field_op_eventWord (by decide) (by decide)

theorem rdfired (idx : Nat) : Statement (.rdfired idx) := fun h => by
  simp only [Instr.wellFormed, isU3, decide_eq_true_eq] at h
  exact field_op_eventWord (by decide) (by omega)

end Sys2Proof.Laws.OpByte
end

