-- ==== Sys2Proof/Tests/Slice0.lean ====
section
/-! SUPPORT. The model's own tests. Expected results are those of the spec's test vectors (the V numbers) or of the rule
named; a `witness_` theorem shows that the hypotheses of the statement it is named after are met together, for each of its
clauses. -/

namespace Sys2Proof.Tests

open Sys2Proof.Machine

/-- A field of the next state. -/
def after {α : Type} (r : Result) (f : State → α) : Option α :=
  match r with
  | .next t => some (f t)
  | .fault _ => none
  | .refused _ => none

/-- The configuration of V1 and V20 together. -/
def c42 : Config :=
  { cycleThreshold := 2, baselineOffset := 512, width := 4, height := 2, magReset := 0, polReset := 0
    fbReset := [0x20, 0x20, 0x20, 0x20, 0x20, 0x20, 0x20, 0x20] }

/-- The configuration of V10, with a reset pair that no publish writes. -/
def c10 : Config := { c42 with
  cycleThreshold := 1, baselineOffset := -2 ^ 31, magReset := 7, polReset := 0
  cycleThreshold_legal := by decide, baselineOffset_legal := by decide, magReset_legal := by decide
  polReset_legal := by decide }

/-- The configuration of V12. -/
def c12 : Config := { c42 with baselineOffset := 0, baselineOffset_legal := by decide }

/-- `c42` with the non-atomic publish of R241. -/
def c42Split : Config := { c42 with publishAtomic := false }

/-- From `RESET`, with a configuration. -/
def start (c : Config) : State := State.resetWith c

/-- The state before V1 step 3. -/
def beforePublish (c : Config) : State := { start c with demod := ⟨1, 2, 208, 208, 0, true⟩ }

/-- The state after V3's publish: magnitude -100, polarity -1. -/
def negativePair : State := { start c42 with published := ⟨BitVec.ofInt 32 (-100), BitVec.ofInt 8 (-1)⟩ }

/-- The buffer `AB    xy` of V20. -/
def bufferAB : Memory := [(0, 0x41), (1, 0x42), (6, 0x78), (7, 0x79)]

/-- The display in stage `st` of a pass of V20. -/
def inPass (st : DisplayStage) (cursor : BitVec 16) : State :=
  { start c42 with mem := bufferAB, disp := ⟨cursor, st, false⟩ }

/-- Every button in one state. -/
def buttonsAt (hold : BitVec 32) (st : ButtonStage) : State :=
  let b : ButtonState := ⟨hold, 0, st⟩
  { start c42 with btn := ⟨b, b, b, b, b⟩ }

/-- A text open for `need` more bytes at row 1, column 2. -/
def textOpen (need : Nat) (bytes : List Byte) : State := { start c42 with text := ⟨1, 2, need, bytes⟩ }

/-- The state with a fault raised. -/
def faulted : State := { start c42 with faulted := true, faultCode := 0x14 }

/-- One word alone at a port. -/
def presented (s : State) (p : PortInputs) : State := { s with inputs := [p] }

/-! ## Well-formedness: an ill-formed term for each check -/

theorem test_wellFormed_raw : (Instr.sample (2 ^ 31) true).wellFormed = false ∧
    (Instr.sample (-2 ^ 31 - 1) true).wellFormed = false ∧ (Instr.sample (-2 ^ 31) true).wellFormed = true := by decide
theorem test_wellFormed_row : (Instr.settext 256 0 0).wellFormed = false := by decide
theorem test_wellFormed_col : (Instr.settext 0 256 0).wellFormed = false := by decide
theorem test_wellFormed_len : (Instr.settext 0 0 256).wellFormed = false := by decide
theorem test_wellFormed_idx : (Instr.rdfired 8).wellFormed = false ∧ (Instr.rdfired 7).wellFormed = true := by decide
theorem test_trace_stray_textdata : wellFormedTrace [.textdata 0x41] = false := by decide
theorem test_trace_text_cut_short : wellFormedTrace [.settext 0 0 2, .textdata 0x41] = false := by decide
theorem test_trace_text_interrupted : wellFormedTrace [.settext 0 0 1, .rdmag, .textdata 0x41] = false := by decide
theorem test_trace_V20_text : wellFormedTrace (Instr.text 1 2 [0x78, 0x79, 0x7A]) = true := by decide

/-! ## Decoding: each word written out from the pattern of its rule -/

/-- R83: `00000001 00000000 00000000 00000000 00000000`. -/
theorem test_decode_reset : decode 0b0000000100000000000000000000000000000000#40 = .ok .reset := by decide
/-- R84: `0001000g` and `raw`; 612 is `00000010 01100100`. -/
theorem test_decode_sample : decode 0b0001000100000000000000000000001001100100#40 = .ok (.sample 612 true) := by decide
/-- R84: -3 with the gate closed. -/
theorem test_decode_sample_negative :
    decode 0b0001000011111111111111111111111111111101#40 = .ok (.sample (-3) false) := by decide
/-- R85: button 0 alone pressed. -/
theorem test_decode_tick : decode 0b0010000000000000000000000000000000011110#40 = .ok (.tick 0b11110#5) := by decide
/-- R86: `SETTEXT 1, 2, 3`. -/
theorem test_decode_settext : decode 0b0011000000000000000000010000001000000011#40 = .ok (.settext 1 2 3) := by decide
/-- R87: `TEXTDATA 0x41`. -/
theorem test_decode_textdata : decode 0b0011000100000000000000000000000001000001#40 = .ok (.textdata 0x41#8) := by decide
/-- R88. -/
theorem test_decode_rdmag : decode 0b0100000000000000000000000000000000000000#40 = .ok .rdmag := by decide
/-- R89. -/
theorem test_decode_rdpol : decode 0b0100000100000000000000000000000000000000#40 = .ok .rdpol := by decide
/-- R90: `RDFIRED 3`. -/
theorem test_decode_rdfired : decode 0b0100001000000000000000000000000000000011#40 = .ok (.rdfired 3) := by decide
/-- V40, R96: `SAMPLE 612, 1` is the bytes `11 00 00 02 64`. -/
theorem test_bytes_sample : encodeBytes (.sample 612 true) = [0x11, 0x00, 0x00, 0x02, 0x64] ∧
    decodeBytes [0x11, 0x00, 0x00, 0x02, 0x64, 0x99] = .ok (.sample 612 true, [0x99]) := by decide
/-- V41: unassigned `op` values. -/
theorem test_decode_unassigned : decode 0x0000000000#40 = .error .unassignedOp ∧
    decode 0x0200000000#40 = .error .unassignedOp ∧ decode 0x1200000000#40 = .error .unassignedOp ∧
    decode 0x2100000000#40 = .error .unassignedOp ∧ decode 0x3200000000#40 = .error .unassignedOp ∧
    decode 0x4300000000#40 = .error .unassignedOp ∧ decode 0xFFFFFFFFFF#40 = .error .unassignedOp := by decide
/-- V16, V24, V35, V41: must-be-zero bits. -/
theorem test_decode_reserved : decode 0x2000000020#40 = .error .reservedBits ∧
    decode 0x3001000000#40 = .error .reservedBits ∧ decode 0x4200000008#40 = .error .reservedBits ∧
    decode 0x0100000001#40 = .error .reservedBits ∧ decode 0x4000000001#40 = .error .reservedBits ∧
    decode 0x4180000000#40 = .error .reservedBits := by decide
/-- A table word, numbered as the table numbers it. -/
theorem test_table_word : decodeTableWord 40 0x1000000000 = some (.sample 0 false) ∧
    decodeTableWord 40 0x0000000000 = none ∧ decodeTableWord 40 0x10000000000 = none := by decide
/-- R98: lines of program S1. -/
theorem test_line : (Instr.sample 612 true).line = "SAMPLE 612, 1" ∧ Instr.rdmag.line = "RDMAG" := by decide

/-- R98, R99: lines with a comment, a quoted `;`, a pseudo-operation; lower case, an index of four bits and a `raw` past
`i32` are refused. -/
theorem test_readLine : readLine "SAMPLE -3, 0 ; comment".toList = some [.sample (-3) false] ∧
    readLine "SAMPLE 0xFFFFFFFD, 0".toList = some [.sample (-3) false] ∧
    readLine "TEXTDATA ';' ; x".toList = some [.textdata 0x3B] ∧
    readLine "TEXT 1, 2, \"a,b;\"".toList = some (Instr.text 1 2 [0x61, 0x2C, 0x62, 0x3B]) ∧
    readLine "TICKS 2, 0b11110".toList = some [.tick 0b11110, .tick 0b11110] ∧
    readLine "sample 1, 1".toList = none ∧ readLine "RDFIRED 8".toList = none ∧
    readLine "SAMPLE 4294967295, 1".toList = none := by decide
/-- R92, R98: the words of a text stand contiguously. -/
theorem test_readTrace : readTrace ["SETTEXT 0, 0, 1".toList, "TEXTDATA 'A'".toList, "RDMAG ; -> 3".toList] =
      some [.settext 0 0 1, .textdata 0x41, .rdmag] ∧
    readTrace ["SETTEXT 0, 0, 2".toList, "TEXTDATA 'A'".toList, "RDMAG".toList] = none := by decide

/-! ## One step of each event -/

/-- V45, R230: `RESET` clears a fault, and the pair goes back to `MAG_RESET`, `POL_RESET`. -/
theorem test_reset : after (exec .reset { beforePublish c10 with faulted := true, faultCode := 0x14, mem := [(0, 0x41)] })
    (fun t => (t.faulted, t.faultCode, t.demod.sampleCount, t.published.magnitude, t.cell 0)) =
    some (false, 0, 0, 7, 0x20) := by decide

/-- V1 step 3: the publish of 102, +1. -/
theorem test_sample_publish : after (exec (.sample 412 false) (beforePublish c42))
    (fun t => (t.published, t.publishOut, t.demod)) =
    some (⟨102, 1⟩, [0x0100000066#40], ⟨0, 0, 0, 0, 0, false⟩) := by decide

/-- V4 (truncation toward zero), V10, V12 (b), V12 (d), V12 (a): the publish word or the fault code. -/
theorem test_sample_corners :
    after (exec (.sample 0 false) { start c12 with demod := ⟨1, 2, -7, -7, 0, true⟩ }) (·.publishOut) =
      some [0xFFFFFFFFFE#40] ∧
    after (exec (.sample 2147483647 true) (start c10)) (·.faultCode) = some 0x14 ∧
    after (exec (.sample 1 true) { start c12 with demod := ⟨0, 0, 0x7FFFFFFFFFFFFFFF, 5, 0, true⟩ }) (·.faultCode) = some 0x10 ∧
    after (exec (.sample (-1) false) { start c12 with demod := ⟨0, 0, 0, 0, 0x8000000000000000, false⟩ })
      (·.faultCode) = some 0x12 ∧
    after (exec (.sample 1 true) { start c12 with demod := ⟨0, 0xFFFFFFFF, 0, 0, 0, true⟩ }) (·.faultCode) = some 0x13 := by
  decide

/-- V20, ticks 7 and 13: DATA, then a row boundary and the end of the buffer. -/
theorem test_tick_display :
    after (exec (.tick 0b11111#5) (inPass .emit 3)) (fun t => (t.displayOut, t.disp)) =
      some ([0x03000020#32], ⟨4, .positionRow, false⟩) ∧
    after (exec (.tick 0b11111#5) (inPass .emit 7)) (fun t => (t.displayOut, t.disp)) =
      some ([0x03000079#32], ⟨0, .idle, false⟩) := by decide

/-- V31, tick 100, and V33, tick 151: an edge event of button 0 alone, and a release that keeps the count. -/
theorem test_tick_buttons :
    after (exec (.tick 0b11110#5) (buttonsAt 99 .idle)) (fun t => (t.fired, t.btn.get 0, t.btn.get 1)) =
      some (⟨true, false, false, false, false⟩, ⟨0, 0, .held⟩, ⟨0, 0, .idle⟩) ∧
    after (exec (.tick 0b11111#5) (buttonsAt 50 .held)) (fun t => (t.fired.get 0, t.btn.get 0)) =
      some (false, ⟨50, 0, .idle⟩) := by decide

/-- V22 (c): an empty text in range sets `dirty`; V22 (b): one out of range does not. -/
theorem test_settext :
    after (exec (.settext 1 3 0) (start c42)) (fun t => (t.disp.dirty, t.mem)) = some (true, []) ∧
    after (exec (.settext 2 0 0) (start c42)) (fun t => (t.disp.dirty, t.faulted)) = some (false, false) := by decide

/-- V20's second text, its last word: `z` falls at offset 8 and is clipped. V24: a stray `TEXTDATA`. -/
theorem test_textdata :
    after (exec (.textdata 0x7A) (textOpen 1 [0x78, 0x79])) (fun t => (t.mem, t.disp.dirty, t.text.need)) =
      some ([(6, 0x78), (7, 0x79)], true, 0) ∧
    after (exec (.textdata 0x41) (start c42)) (·.faultCode) = some 0x02 := by decide

/-- V3: the response to `RDMAG`. -/
theorem test_rdmag : after (exec .rdmag negativePair) (·.responses) = some [0xFFFFFF9C#32] := by decide

/-- V3: the response to `RDPOL`. -/
theorem test_rdpol : after (exec .rdpol negativePair) (·.responses) = some [0xFFFFFFFF#32] := by decide

/-- V35: a flag is read and cleared, and index 5 faults without a response. -/
theorem test_rdfired :
    after (exec (.rdfired 1) { start c42 with fired := ⟨false, true, false, true, false⟩ })
      (fun t => (t.responses, t.fired)) = some ([1#32], ⟨false, false, false, true, false⟩) ∧
    after (exec (.rdfired 5) (start c42)) (fun t => (t.faultCode, t.responses)) = some (0x03, []) := by decide

/-- V41: an illegal word at the host port. -/
theorem test_step_illegal : after (step (presented (start c42) { host := some 0xFFFFFFFFFF#40 }))
    (fun t => (t.faulted, t.faultCode, t.inputs)) = some (true, 0x01, []) := by decide

/-- R97: `SAMPLE` before `TICK` at the same instant, and the `TICK` still to come. -/
theorem test_step_priority :
    after (step (presented (start c42) { sample := some ⟨612, true⟩, tick := some 0b11110#5 }))
      (fun t => (t.demod.sampleCount, t.btn.get 0, t.inputs)) =
      some (1, ⟨0, 0, .idle⟩, [{ tick := some 0b11110#5 }]) := by decide

/-- Every row of the opcode table is the first event performed after `State.reset`, whose OPEN parameters are free. -/
theorem test_reset_runs_table_words :
    step (State.reset.withFetchWord 40 0x1000000000) = exec (.sample 0 false) State.reset ∧
    step (State.reset.withFetchWord 40 0x2000000000) = exec (.tick 0) State.reset ∧
    step (State.reset.withFetchWord 40 0x3000000000) = exec (.settext 0 0 0) State.reset ∧
    step (State.reset.withFetchWord 40 0x4200000000) = exec (.rdfired 0) State.reset := ⟨rfl, rfl, rfl, rfl⟩

/-! ## Witnesses -/

theorem witness_EncodedEventDecodesToItself : (Instr.sample (-2 ^ 31) true).wellFormed = true ∧
    (Instr.settext 255 255 255).wellFormed = true ∧ (Instr.rdfired 7).wellFormed = true := by decide

theorem witness_DecodedWordIsItsEventsEncoding : decode 0x1080000000#40 = .ok (.sample (-2 ^ 31) false) := by decide

theorem witness_OpcodeTableRowsSpellTheirEvents :
    (⟨"SAMPLE", 0x1000000000#40, 0xFE00000000#40⟩ : OpcodeRow) ∈ opcodeTable := by decide

theorem witness_IllegalWordsAreRejectedAndRaise :
    (presented (start c42) { host := some 0#40 }).good ∧
    fetch (presented (start c42) { host := some 0#40 }).inputs = .word .host 0#40 [] ∧
    decode 0#40 = .error .unassignedOp := by decide

theorem witness_OutputWordsCarryTheirFields : (255 : Nat) < 256 := by decide

theorem witness_StepPerformsTheDecodedEvent :
    fetch (presented (textOpen 2 []) { tick := some 0#5 }).inputs = .word .tick 0x2000000000#40 [] ∧
    decode 0x2000000000#40 = .ok (.tick 0) ∧ publishOpen (textOpen 2 []) = false ∧ InPort.tick ≠ .host := by decide

theorem witness_PlacedWordIsPerformedNext : 0x42FFFFFFFF < 2 ^ 40 ∧ (start c42).publishHalf = none ∧
    decode (BitVec.ofNat 40 0x4200000007) = .ok (.rdfired 7) := by decide

theorem witness_PortsAreServedInPriorityOrder :
    ({ reset := true, host := some 0#40 } : PortInputs).reset = true ∧
    ({ sample := some ⟨0, false⟩, tick := some 0#5 } : PortInputs).sample = some ⟨0, false⟩ ∧
    ({ tick := some 0#5, host := some 0#40 } : PortInputs).tick = some 0#5 ∧
    ({ host := some 0#40 } : PortInputs).host = some 0#40 := by decide

/-- Half way through the publish of V1 step 3 with `PUBLISH_ATOMIC = false`. -/
def halfPublished : State :=
  { start c42Split with demod := ⟨2, 3, 308, 208, BitVec.ofInt 64 (-100), false⟩, published := ⟨102, 0⟩, publishHalf := some 1 }

theorem witness_StepWithoutAnEventChangesNothing :
    fetch [({} : PortInputs)] = .nothing [] ∧ fetch [] = .nothing [] ∧
    fetch [({} : PortInputs), { tick := some 0#5 }] = .nothing [{ tick := some 0#5 }] ∧ publishOpen (start c42) = false ∧
    publishOpen { halfPublished with faulted := true, faultCode := 1 } = false := by decide

theorem witness_HalfDonePublishIsFinishedFirst :
    halfPublished.good ∧ halfPublished.publishHalf = some 1 ∧ fetch halfPublished.inputs = .nothing [] ∧
    fetch (presented halfPublished { tick := some 0#5 }).inputs = .word .tick 0x2000000000#40 [] ∧
    decode 0x2000000000#40 = .ok (.tick 0) ∧ (Instr.tick 0).agent ≠ .host := by decide

theorem witness_NoStepChangesTheConfiguration : (after (step (start c42)) id).isSome := by decide

theorem witness_StepSendsAtMostOneWordPerPort :
    after (step (presented (beforePublish c42) { sample := some ⟨412, false⟩ })) (·.publishOut.length) = some 1 := by decide

theorem witness_ResetStateSatisfiesTheInvariants : (after (exec .reset faulted) id).isSome := by decide

/-- The premises of `SampleFollowsItsFiveSteps` are `faulted` or `good`, the rest are equations that define their variables;
each line meets one clause, at its boundary: `acc'`, `ps'`, `ns'`, `sc'` one past their limits, `gc'` one below the threshold and
at it, `q` one past its limit, and a publish. -/
theorem witness_SampleFollowsItsFiveSteps :
    (accumulate c12 ⟨0, 0, 0x7FFFFFFFFFFFFFFF, 5, 0, true⟩ 1 true).acc = 2 ^ 63 ∧
    (accumulate c12 ⟨0, 0, 0, 0x7FFFFFFFFFFFFFFF, 0, true⟩ 1 true).ps = 2 ^ 63 ∧
    (accumulate c12 ⟨0, 0, 0, 0, 0x8000000000000000, false⟩ (-1) false).ns = -2 ^ 63 - 1 ∧
    (accumulate c12 ⟨0, 0xFFFFFFFF, 0, 0, 0, true⟩ 1 true).sc = 2 ^ 32 ∧
    (accumulate c42 DemodulationState.zero 612 true).gc = 1 ∧ c42.cycleThreshold = 2 ∧
    (let a := accumulate { c12 with cycleThreshold := 1, cycleThreshold_legal := by decide } ⟨0, 0, 0, 0, 0, true⟩
      (-2 ^ 31) false
     a.gc = 1 ∧ tdiv a.acc a.sc = 2 ^ 31) ∧
    (accumulate c42 (beforePublish c42).demod 412 false).gc = 2 ∧ (beforePublish c42).good ∧
    c42.publishAtomic = true ∧ faulted.faulted = true := by decide

/-- A sum of 2^31 - 1 over one sample: the greatest magnitude that fits. -/
theorem witness_NonAtomicSampleIsTheFirstStepOfAPublish :
    (start { c42Split with cycleThreshold := 1, baselineOffset := 0
                           cycleThreshold_legal := by decide, baselineOffset_legal := by decide }).good ∧
    c42Split.publishAtomic = false ∧
    (let a := accumulate { c12 with cycleThreshold := 1, cycleThreshold_legal := by decide } .zero (2 ^ 31 - 1) true
     a.overflow = none ∧ 1 ≤ a.gc ∧ Int.tdiv a.acc a.sc = 2 ^ 31 - 1) := by decide

theorem witness_TdivRoundsTowardZero : (0 : Int) < 1 ∧ tdiv (-7) 2 = -3 ∧ (-7 : Int) = -3 * 2 + -1 := by decide

theorem witness_PublishedPolarityIsTheAccumulatorsSign :
    (beforePublish c42).good ∧ DemodInv (beforePublish c42) ∧ c42.publishAtomic = true ∧
    after (exec (.sample 412 false) (beforePublish c42)) (·.publishOut) ≠ some (beforePublish c42).publishOut := by
  unfold DemodInv
  decide

theorem witness_TwoStepPublishEqualsOneStepPublish :
    c42Split.publishAtomic = false ∧ (beforePublish c42Split).publishHalf = none ∧
    after (exec (.sample 412 false) (beforePublish c42Split)) (·.publishHalf) = some (some 1) ∧
    (after (exec (.sample 412 false) { beforePublish c42Split with cfg := { c42Split with publishAtomic := true } }) id).isSome := by
  decide

theorem witness_RdmagRespondsWithTheMagnitude : faulted.faulted = true ∧ negativePair.hostReady := by decide

theorem witness_RdpolRespondsWithThePolaritySignExtended : faulted.faulted = true ∧ negativePair.hostReady := by decide

theorem witness_TickWritesItsRegistersOnlyAndAlone :
    (inPass .emit 7).good ∧ (inPass .emit 7).cursorReady ∧
    ((∀ mask, Instr.rdmag ≠ .tick mask) ∧ Instr.rdmag ≠ .reset ∧ (after (exec .rdmag (start c42)) id).isSome) := by decide

theorem witness_IdleTickChangesNothing : (start c42).disp.stage = .idle ∧ (start c42).disp.dirty = false ∧
    ∀ i, ((start c42).btn.get i).stage = .idle ∧ ((start c42).btn.get i).holdTicks = 0 := by decide

theorem witness_DisplayStepFollowsItsTable :
    ({ start c42 with disp := ⟨0, .idle, true⟩ }).cursorReady ∧ (inPass .positionRow 4).cursorReady ∧
    (inPass .positionColumn 4).cursorReady ∧ (inPass .emit 7).cursorReady ∧ (inPass .emit 3).cursorReady ∧
    (inPass .emit 2).cursorReady ∧ (inPass .emit 7).good := by decide

theorem witness_TickStopsWhereNoCellExists :
    (inPass .emit 8).good ∧ (inPass .emit 8).disp.stage ≠ .idle ∧ c42.cells ≤ (inPass .emit 8).disp.cursor.toNat := by decide

theorem witness_SettextHeaderOpensATextOrIsTheWholeEvent :
    (start c42).hostReady ∧ 1 < c42.height ∧ 3 < c42.width ∧ ¬ 2 < c42.height := by decide

theorem witness_TextdataAppendsAndTheLastOnePerformsTheText :
    (textOpen 2 []).good ∧ (textOpen 2 []).text.need = 2 ∧ MemoryInv (textOpen 2 []) ∧
    (textOpen 1 [0x78, 0x79]).text.need = 1 ∧ MemoryInv (textOpen 1 [0x78, 0x79]) ∧
    linearOffset c42 1 2 + 1 < c42.cells ∧ c42.cells ≤ linearOffset c42 1 2 + 2 := by decide

theorem witness_SettextCopiesClipsAndSetsDirty : faulted.faulted = true ∧ 3 ≤ [0x50#8, 0x51#8, 0x52#8].length ∧
    (inPass .idle 0).hostReady ∧ MemoryInv (inPass .idle 0) ∧ TextInv (inPass .idle 0) ∧
    ¬ (1 ≥ c42.height ∨ 3 ≥ c42.width) ∧ 2 ≥ c42.height ∧ 3 + 1 * c42.width + 0 < c42.width * c42.height ∧
    c42.width * c42.height ≤ 3 + 1 * c42.width + 1 := by
  unfold TextInv
  decide

theorem witness_BadSequenceDiscardsTheText :
    (start c42).good ∧ (start c42).text.need = 0 ∧ (textOpen 1 [0x41]).good ∧ (textOpen 1 [0x41]).text.need ≠ 0 ∧
    Instr.rdmag.agent = .host ∧ (∀ byte, Instr.rdmag ≠ .textdata byte) ∧
    (presented (textOpen 1 []) { host := some 0x2000000000#40 }).good ∧
    (textOpen 1 []).publishHalf = none ∧ (textOpen 1 []).text.need ≠ 0 ∧
    fetch (presented (textOpen 1 []) { host := some 0x2000000000#40 }).inputs = .word .host 0x2000000000#40 [] ∧
    decode 0x2000000000#40 = .ok (.tick 0) ∧ Instr.tick 0 ≠ .reset ∧ ∀ byte, Instr.tick 0 ≠ .textdata byte := by decide

theorem witness_DirtyStaysUntilAPassStarts :
    ({ start c42 with disp := ⟨0, .idle, true⟩ } : State).disp.dirty = true ∧
    (after (exec (.tick 0) { start c42 with disp := ⟨0, .idle, true⟩ }) id).isSome ∧
    (after (exec .rdmag { start c42 with disp := ⟨0, .idle, true⟩ }) id).isSome := by decide

theorem witness_DisplayPassSendsEveryCellOnce :
    ({ start c42 with disp := ⟨0, .idle, true⟩ } : State).good ∧ (List.replicate 13 0b11111#5).length = 1 + c42.height * (c42.width + 2) ∧
    0 < (List.replicate 12 0b11111#5).length ∧ (List.replicate 12 0b11111#5).length < 1 + c42.height * (c42.width + 2) := by decide

theorem witness_ButtonStepFollowsItsTable :
    (buttonsAt 99 .idle).good ∧ (buttonsAt 99 .idle).cursorReady ∧ (0b11110#5).getLsbD 0 = false ∧
    (0b11110#5).getLsbD 1 = true ∧ c42.onThreshold = 99 + 1 ∧ c42.repeatDelay = 299 + 1 ∧
    (buttonsAt 299 .held).good ∧ (buttonsAt 299 .repeating).good := by decide

theorem witness_HeldButtonFiresAtTheEventTicks :
    (start c42).hostReady ∧ DisplayInv (start c42) ∧ (0b11110#5).getLsbD (0 : Fin 5).val = false ∧
    ((start c42).btn.get 0).stage = .idle ∧ ((start c42).btn.get 0).holdTicks = 0 ∧ (start c42).fired.get 0 = false ∧
    isEventTick c42 99 = false ∧ isEventTick c42 100 = true ∧ isEventTick c42 400 = true ∧ isEventTick c42 1000 = true ∧
    isEventTick c42 999 = false := by
  unfold DisplayInv
  decide

theorem witness_OneTickReleaseCountsOnFromTheKeptValue :
    (buttonsAt 250 .held).good ∧ DisplayInv (buttonsAt 250 .held) ∧ (0b11111#5).getLsbD (0 : Fin 5).val = true ∧
    (0b11110#5).getLsbD (0 : Fin 5).val = false ∧ ((buttonsAt 250 .held).btn.get 0).stage ≠ .idle ∧
    c42.onThreshold ≤ 250 + 1 ∧ ((buttonsAt 98 .repeating).btn.get 0).stage ≠ .idle ∧ ¬ c42.onThreshold ≤ 98 + 1 := by
  unfold DisplayInv
  decide

theorem witness_RdfiredReadsAndClearsOneFlag : faulted.faulted = true ∧ (start c42).hostReady ∧ 4 ≤ 4 ∧ ¬ 5 ≤ 4 := by decide

theorem witness_SecondReadReturnsNotFired :
    (start c42).good ∧ (∀ mask, Instr.tick mask ∉ [Instr.rdmag]) ∧
    after (performAll (.rdfired (0 : Fin 5).val :: [.rdmag] ++ [.rdfired (0 : Fin 5).val]) (start c42)) (·.faulted) =
      some false := by decide

theorem witness_FaultedBlockObeysOnlyReset :
    (start c42).good ∧ faulted.faulted = true ∧ Instr.rdmag ≠ .reset ∧
    fetch (presented faulted { host := some 0#40 }).inputs = .word .host 0#40 [] ∧ (0#40) ≠ 0x0100000000#40 ∧
    (after (exec .reset faulted) id).isSome := by decide

theorem witness_OnlySampleAndResetTouchDemodulationState :
    (∀ raw gate, Instr.rdmag ≠ .sample raw gate) ∧ Instr.rdmag ≠ .reset := by simp

theorem witness_PublishedPairIsWrittenBySampleAndReadByTheHost :
    (∀ raw gate, Instr.tick 0 ≠ .sample raw gate) ∧ Instr.tick 0 ≠ .reset ∧ Instr.tick 0 ≠ .rdmag ∧
    Instr.tick 0 ≠ .rdpol ∧ (after (exec .rdpol (start c42)) id).isSome := by
  refine ⟨by simp, by simp, by simp, by simp, by decide⟩

theorem witness_ButtonsBelongToTickAndFlagsToTickAndRdfired :
    (∀ mask, Instr.rdmag ≠ .tick mask) ∧ (∀ idx, Instr.rdmag ≠ .rdfired idx) ∧ Instr.rdmag ≠ .reset ∧
    (after (exec (.tick 0) { start c42 with fired := ⟨true, false, false, false, false⟩ }) id).isSome ∧
    (after (exec (.rdfired 0) (start c42)) id).isSome ∧ (start c42).fired.get 0 = false := by
  refine ⟨by simp, by simp, by simp, by decide, by decide, by decide⟩

theorem witness_DisplayRegistersBelongToTickAndBufferToSettext :
    (∀ mask, Instr.rdmag ≠ .tick mask) ∧ Instr.rdmag ≠ .reset ∧ (∀ row col len, Instr.rdmag ≠ .settext row col len) ∧
    (∀ byte, Instr.rdmag ≠ .textdata byte) ∧ (after (exec (.tick 0) (start c42)) id).isSome ∧
    after (exec (.settext 0 0 0) (start c42)) (·.disp.dirty) = some true ∧
    after (exec (.tick 0) { start c42 with disp := ⟨0, .idle, true⟩ }) (·.disp.dirty) = some false := by
  refine ⟨by simp, by simp, by simp, by simp, by decide, by decide, by decide⟩

theorem witness_PressCountIsNeverReadOrWritten : Instr.tick 0 ≠ .reset ∧ (after (exec .reset (start c42)) id).isSome ∧
    (after (exec (.tick 0) (start c42)) id).isSome := by decide

theorem witness_EventsOfTheTwoPartsCommute :
    (Instr.sample 612 true).agent = .sampling ∧ (Instr.tick 0).agent = .timer ∧
    after (exec (.sample 612 true) (start c42)) (·.faulted) = some false ∧
    after (exec (.tick 0) (start c42)) (·.faulted) = some false ∧
    after (exec (.rdfired 4) (start c42)) (·.faulted) = some false ∧
    after (exec (.settext 0 0 2) (start c42)) (·.faulted) = some false ∧
    after (exec (.textdata 0) (textOpen 2 [])) (·.faulted) = some false ∧
    after (exec .rdmag (start c42)) (·.faulted) = some false := by decide

theorem witness_StepKeepsTheFrameBufferCanonical : MemoryInv (presented (inPass .emit 7) { tick := some 0#5 }) ∧
    (after (step (presented (inPass .emit 7) { tick := some 0#5 })) id).isSome := by decide

theorem witness_StepKeepsTheDisplayInvariant : DisplayInv (presented (inPass .emit 7) { tick := some 0#5 }) ∧
    (after (step (presented (inPass .emit 7) { tick := some 0#5 })) id).isSome := by
  unfold DisplayInv
  decide

theorem witness_StepKeepsTheDemodulatorInvariant : DemodInv (presented halfPublished { tick := some 0#5 }) ∧
    (after (step (presented halfPublished { tick := some 0#5 })) id).isSome := by
  unfold DemodInv
  decide

theorem witness_SumsStayBoundedByTheSampleCount :
    SumBounds (presented (beforePublish c42) { sample := some ⟨412, false⟩ }) ∧
    (after (step (presented (beforePublish c42) { sample := some ⟨412, false⟩ })) id).isSome ∧
    (start c10).good ∧ SumBounds (start c10) ∧ isI32 2147483647 = true ∧
    (start c10).demod.sampleCount.toNat < 2 ^ 31 ∧
    after (exec (.sample 2147483647 true) (start c10)) (·.faulted) = some true := by
  unfold SumBounds
  decide

theorem witness_StepKeepsHoldTicksBelowTheThresholds : HoldInv (presented (buttonsAt 299 .held) { tick := some 0#5 }) ∧
    (after (step (presented (buttonsAt 299 .held) { tick := some 0#5 })) id).isSome := by
  unfold HoldInv
  decide

theorem witness_StepKeepsTheFaultPortConsistent : FaultInv (presented (start c42) { host := some 0#40 }) ∧ FaultInv faulted ∧
    (after (step (presented (start c42) { host := some 0#40 })) id).isSome := by
  unfold FaultInv
  decide

theorem witness_StepKeepsTextAndPublishInvariants :
    TextInv (presented (textOpen 1 [0x41]) { host := some 0x3100000042#40 }) ∧
    (after (step (presented (textOpen 1 [0x41]) { host := some 0x3100000042#40 })) id).isSome ∧
    halfPublished.cfg.publishAtomic = false ∧ halfPublished.publishHalf = some 1 ∧ (after (step halfPublished) id).isSome := by
  unfold TextInv
  decide

theorem witness_CanonicalFrameBuffersAreDeterminedByTheirCells : Memory.wf c42 bufferAB = true ∧
    Memory.wf c42 (Memory.write c42 bufferAB 0 0x41) = true ∧
    ∀ k < c42.cells, Memory.read c42 bufferAB k = Memory.read c42 (Memory.write c42 bufferAB 0 0x41) k := by decide

theorem witness_NoRunStopsFromTheDisplayInvariant : DisplayInv (inPass .emit 7) := by
  unfold DisplayInv
  decide

end Sys2Proof.Tests
end

section
/-! SUPPORT. What events and steps keep: the configuration, the display invariant, and the words already sent. -/

namespace Sys2Proof.Machine

variable {s t : State} {i : Instr}

/-! ## The shared operations, field by field -/

@[simp] theorem performText_cfg (row col : Nat) (bytes : List Byte) (s : State) :
    (performText row col bytes s).cfg = s.cfg := by
  unfold performText
  split <;> rfl

@[simp] theorem performText_cursor (row col : Nat) (bytes : List Byte) (s : State) :
    (performText row col bytes s).disp.cursor = s.disp.cursor := by
  unfold performText
  split <;> rfl

@[simp] theorem performText_stage (row col : Nat) (bytes : List Byte) (s : State) :
    (performText row col bytes s).disp.stage = s.disp.stage := by
  unfold performText
  split <;> rfl

theorem performText_keepsOutputs (row col : Nat) (bytes : List Byte) (s : State) :
    KeepsOutputs s (performText row col bytes s) := by
  unfold performText
  split <;> exact ⟨rfl, rfl, rfl⟩

theorem displayAdvance_cfg (h : displayAdvance s = .next t) : t.cfg = s.cfg := by rw [displayAdvance_frame h]

theorem publish_of_atomic (h : s.cfg.publishAtomic = true) (a : Accumulated) (q : Int) :
    publish a q s = finishPublish (BitVec.ofInt 8 (polarityOf a.ps a.ns)) (beginPublish a q s) := by
  simp [publish, h]

theorem publish_of_nonatomic (h : s.cfg.publishAtomic = false) (a : Accumulated) (q : Int) :
    publish a q s = (beginPublish a q s).setPublishHalf (some (BitVec.ofInt 8 (polarityOf a.ps a.ns))) := by
  simp [publish, h]

/-- A publish, whole or half done, writes the measurement and the publish port, nothing else. -/
theorem publish_frame (a : Accumulated) (q : Int) (s : State) :
    publish a q s = { s with
      demod := (publish a q s).demod
      published := (publish a q s).published
      publishHalf := (publish a q s).publishHalf
      publishOut := (publish a q s).publishOut } := by
  simp only [publish]
  split <;> rfl

/-! ## The configuration (R5, R30) -/

/-- No event changes the configuration. -/
theorem Performed.cfg_eq (h : Performed i s t) : t.cfg = s.cfg := by
  cases h with
  | published => rw [publish_frame]
  | ticked _ u _ _ hd => exact (displayAdvance_cfg hd : u.cfg = s.cfg)
  | emptyText | textPerformed => exact performText_cfg ..
  | reset | ignored | raised | badSequence | accumulated | textOpened | byteAppended | magnitudeRead | polarityRead
  | firedRead => rfl

/-- No step changes the configuration. -/
theorem step_cfg (h : step s = .next t) : t.cfg = s.cfg :=
  step_keeps (P := fun u => u.cfg = s.cfg) (fun _ _ hu => hu) (fun _ _ _ hu => hu) (fun _ _ hu => hu)
    (fun _ _ _ _ hu => hu) (fun _ _ _ _ _ hu hx => (exec_performed hx).cfg_eq.trans hu) rfl h

/-! ## The display invariant (R42, R164) -/

/-- The display invariant speaks of the cursor, the stage and the configuration only. -/
theorem DisplayInv.congr (hcursor : t.disp.cursor = s.disp.cursor) (hstage : t.disp.stage = s.disp.stage)
    (hcfg : t.cfg = s.cfg) (h : DisplayInv s) : DisplayInv t := by
  simpa only [DisplayInv, hcursor, hstage, hcfg] using h

/-- At cursor 0 the invariant holds, whatever the stage. -/
theorem displayInv_of_cursor_zero (h : s.disp.cursor = 0) : DisplayInv s := by
  have hpos := s.cfg.cells_pos
  simp [DisplayInv, h, hpos]

/-- `Emit` moves on to a cell that exists, and positions only at the first cell of a row (R160). -/
theorem displayEmit_displayInv (hstage : s.disp.stage = .emit) (hcursor : s.disp.cursor.toNat < s.cfg.cells) :
    DisplayInv (displayEmit s) := by
  have hfit := s.cfg.cells_lt
  have hnext : (BitVec.ofNat 16 (s.disp.cursor.toNat + 1)).toNat = s.disp.cursor.toNat + 1 := by
    rw [BitVec.toNat_ofNat]
    omega
  unfold displayEmit afterEmit
  dsimp only
  split
  · exact displayInv_of_cursor_zero rfl
  · have hlt : s.disp.cursor.toNat + 1 < s.cfg.cells := by omega
    split
    · rename_i hrow
      exact ⟨hnext.trans_lt hlt, fun _ => (congrArg (· % s.cfg.width) hnext).trans hrow, nofun⟩
    · exact ⟨hnext.trans_lt hlt, by simp [hstage], by simp [hstage]⟩

/-- The display step keeps the invariant. -/
theorem displayAdvance_displayInv (hs : DisplayInv s) (h : displayAdvance s = .next t) : DisplayInv t := by
  rcases displayAdvance_cases h with ⟨_, _, rfl⟩ | ⟨_, _, rfl⟩ | ⟨hst, hc, rfl⟩ | ⟨hst, hc, rfl⟩ | ⟨hst, hc, rfl⟩
  · exact hs
  · exact displayInv_of_cursor_zero rfl
  · obtain ⟨_, hrow, _⟩ := hs
    exact ⟨hc, fun _ => hrow (.inl hst), nofun⟩
  · exact ⟨hc, nofun, nofun⟩
  · exact displayEmit_displayInv hst hc

/-- Every event keeps the invariant. -/
theorem Performed.displayInv (h : Performed i s t) (hs : DisplayInv s) : DisplayInv t := by
  cases h with
  | reset => exact displayInv_of_cursor_zero rfl
  | ticked _ u _ _ hd => exact (displayAdvance_displayInv hs hd : DisplayInv u)
  | published => rw [publish_frame]; exact hs
  | emptyText | textPerformed => exact hs.congr (performText_cursor ..) (performText_stage ..) (performText_cfg ..)
  | ignored | raised | badSequence | accumulated | textOpened | byteAppended | magnitudeRead | polarityRead
  | firedRead => exact hs

/-- Every step keeps the invariant. -/
theorem step_displayInv (hs : DisplayInv s) (h : step s = .next t) : DisplayInv t :=
  step_keeps (fun _ _ hu => hu) (fun _ _ _ hu => hu) (fun _ _ hu => hu) (fun _ _ _ _ hu => hu)
    (fun _ _ _ _ _ hu hx => (exec_performed hx).displayInv hu) hs h

/-! ## Progress -/

theorem DisplayInv.cursorReady (h : DisplayInv s) : s.cursorReady := .inr h.1

/-- Every event completes where the cursor addresses a cell: only the display step of `TICK` can stop (log 7). -/
theorem exec_next (h : s.cursorReady) (i : Instr) : ∃ t, exec i s = .next t := by
  cases i with
  | tick mask =>
    obtain ⟨u, hu⟩ := displayAdvance_next h
    simp only [exec, execTick, tickEffect, hu]
    split <;> exact ⟨_, rfl⟩
  | reset | sample | settext | textdata | rdmag | rdpol | rdfired => exact ⟨_, rfl⟩

/-- A presented word completes where the cursor addresses a cell. -/
theorem perform_next (h : s.cursorReady) (port : InPort) (e : EventWord) : ∃ t, perform port e s = .next t := by
  unfold perform
  split
  · exact ⟨_, rfl⟩
  · split
    · exact ⟨_, rfl⟩
    · exact exec_next h _

/-- Every step completes where the cursor addresses a cell. -/
theorem step_next (h : s.cursorReady) : ∃ t, step s = .next t := by
  rcases step_cases s with ⟨rest, _, hstep⟩ | ⟨_, _, _, _, _, _, hstep⟩ | ⟨port, e, rest, _, _, hstep⟩
  · exact ⟨_, hstep⟩
  · exact ⟨_, hstep⟩
  · rw [hstep]
    exact perform_next (s := s.setInputs rest) h port e

/-! ## At most one word on each port (R12) -/

/-- The second list is the first with at most one element more, at its end. -/
def AppendsAtMostOne {α : Type} (l l' : List α) : Prop := ∃ ws, l' = l ++ ws ∧ ws.length ≤ 1

theorem AppendsAtMostOne.refl {α : Type} (l : List α) : AppendsAtMostOne l l := ⟨[], by simp⟩

theorem AppendsAtMostOne.snoc {α : Type} (l : List α) (w : α) : AppendsAtMostOne l (l ++ [w]) := ⟨[w], by simp⟩

/-- From `s` to `t` at most one word is sent on each output port, and none taken back. -/
def SendsAtMostOne (s t : State) : Prop :=
  AppendsAtMostOne s.displayOut t.displayOut ∧ AppendsAtMostOne s.publishOut t.publishOut ∧
    AppendsAtMostOne s.responses t.responses

theorem SendsAtMostOne.of_keepsOutputs (h : KeepsOutputs s t) : SendsAtMostOne s t := by
  obtain ⟨hd, hp, hr⟩ := h
  rw [SendsAtMostOne, hd, hp, hr]
  exact ⟨.refl _, .refl _, .refl _⟩

theorem SendsAtMostOne.refl (s : State) : SendsAtMostOne s s := .of_keepsOutputs ⟨rfl, rfl, rfl⟩

/-- A publish sends its word, unless it is left half done (R241). -/
theorem publish_sendsAtMostOne (a : Accumulated) (q : Int) (s : State) : SendsAtMostOne s (publish a q s) := by
  simp only [publish]
  split
  · exact ⟨.refl _, .snoc _ _, .refl _⟩
  · exact .refl s

theorem settlePublish_sendsAtMostOne (s : State) : SendsAtMostOne s (settlePublish s) := by
  rcases settlePublish_cases s with ⟨heq, _⟩ | ⟨p, _, _, heq⟩
  · rw [heq]; exact .refl s
  · rw [heq]; exact ⟨.refl _, .snoc _ _, .refl _⟩

/-- Each stage but `Idle` sends one display word (R157 to R160). -/
theorem displayAdvance_sendsAtMostOne (h : displayAdvance s = .next t) : SendsAtMostOne s t := by
  rcases displayAdvance_cases h with ⟨_, _, rfl⟩ | ⟨_, _, rfl⟩ | ⟨_, _, rfl⟩ | ⟨_, _, rfl⟩ | ⟨_, _, rfl⟩
  · exact .refl t
  · exact .refl s
  · exact ⟨.snoc _ _, .refl _, .refl _⟩
  · exact ⟨.snoc _ _, .refl _, .refl _⟩
  · exact ⟨.snoc _ _, .refl _, .refl _⟩

theorem Performed.sendsAtMostOne (h : Performed i s t) : SendsAtMostOne s t := by
  cases h with
  | ticked _ u _ _ hd => exact (displayAdvance_sendsAtMostOne hd : SendsAtMostOne s u)
  | published => exact publish_sendsAtMostOne _ _ s
  | emptyText | textPerformed => exact .of_keepsOutputs (performText_keepsOutputs ..)
  | magnitudeRead | polarityRead | firedRead => exact ⟨.refl _, .refl _, .snoc _ _⟩
  | reset | ignored | raised | badSequence | accumulated | textOpened | byteAppended => exact .refl s

/-- `raise` writes no port's words. -/
theorem raise_sendsAtMostOne (f : FaultKind) (s : State) : SendsAtMostOne s (raise f s) := by
  unfold raise
  split <;> exact .refl s

theorem raiseBadSequence_sendsAtMostOne (s : State) : SendsAtMostOne s (raiseBadSequence s) := by
  unfold raiseBadSequence
  split
  · exact .refl s
  · exact raise_sendsAtMostOne .badSequence s

theorem perform_sendsAtMostOne {port : InPort} {e : EventWord} (h : perform port e s = .next t) : SendsAtMostOne s t := by
  rcases perform_cases h with ⟨_, _, rfl⟩ | ⟨_, _, _, rfl⟩ | ⟨i, _, _, hx⟩
  · exact raise_sendsAtMostOne .illegalWord s
  · exact raiseBadSequence_sendsAtMostOne s
  · exact (exec_performed hx).sendsAtMostOne

theorem step_sendsAtMostOne (h : step s = .next t) : SendsAtMostOne s t := by
  rcases step_cases s with ⟨rest, _, hstep⟩ | ⟨_, _, _, _, _, _, hstep⟩ | ⟨port, e, rest, _, _, hstep⟩
  · obtain rfl := Host.Outcome.next.inj (hstep.symm.trans h)
    exact settlePublish_sendsAtMostOne s
  · obtain rfl := Host.Outcome.next.inj (hstep.symm.trans h)
    exact settlePublish_sendsAtMostOne s
  · exact perform_sendsAtMostOne (s := s.setInputs rest) (hstep.symm.trans h)

end Sys2Proof.Machine
end

section
/-! SUPPORT. From a word to its event: the word of a decoded event (R91), and the word that stands alone in an instant. -/

namespace Sys2Proof

/-! ## A decoded event's word -/

/-- A word is put together from its `op` and its `arg` (R81). -/
theorem eventWord_field (e : EventWord) : eventWord (field e 39 32) (field e 31 0) = e := by
  apply BitVec.eq_of_toNat_eq
  rw [eventWord, BitVec.toNat_ofNat, field, field]
  have := e.isLt
  omega

/-- The operand of a `SAMPLE` word is the pattern it was read from. -/
theorem pattern_toInt_field (e : EventWord) :
    (BitVec.ofInt 32 (BitVec.ofNat 32 (field e 31 0)).toInt).toNat = field e 31 0 := by
  rw [BitVec.ofInt_toInt, BitVec.toNat_ofNat, field]
  omega

/-- A decoded event is written by the very word it was read from (R91): with the reserved bits zero, its operands make up
the whole `arg`. -/
theorem encode_of_decode {e : EventWord} {i : Instr} (h : decode e = .ok i) : encode i = e := by
  rw [← eventWord_field e]
  unfold decode at h
  split at h
  case h_2 hop | h_3 hop => -- the two rows of `SAMPLE`, which have no reserved bits
    obtain rfl := Except.ok.inj h
    rw [hop, encode, pattern_toInt_field]
  case h_10 => cases h -- an unassigned `op`
  all_goals
    obtain ⟨hz, rfl⟩ := whenZero_ok h
    rename_i hop
    rw [hop, encode]
    congr 1
    simp only [field, BitVec.toNat_ofNat] at hz ⊢
    omega

end Sys2Proof

namespace Sys2Proof.Machine

variable {s : State} {e : EventWord} {i : Instr}

/-- The event of a word that breaks no text is performed. -/
theorem perform_of_decode {port : InPort} (hd : decode e = .ok i) (hb : breaksText port i s = false) :
    perform port e s = exec i s := by
  simp [perform, hd, hb]

/-- Which events break no text (R92; log 6). -/
theorem breaksText_eq_false {port : InPort}
    (h : port ≠ .host ∨ i.agent = .host ∨ i.agent = .reset ∨ s.text.need = 0) : breaksText port i s = false := by
  rcases h with h | h | h | h <;> simp [breaksText, h]

/-- A word taken from the trace is performed at once, unless the second step of a publish comes first (R241; log 9). -/
theorem step_of_fetch {port : InPort} {rest : List PortInputs} (hf : fetch s.inputs = .word port e rest)
    (h : publishOpen s = false ∨ fallsBetween e = true) : step s = perform port e (s.setInputs rest) := by
  rcases h with h | h <;> simp [step, hf, h]

/-- The word that stands alone in an instant is fetched as it is, at the port of its agent (R80, R81). -/
theorem fetch_ofWord (h : decode e = .ok i) (rest : List PortInputs) :
    ∃ port, fetch (PortInputs.ofWord e :: rest) = .word port e rest ∧ (port ≠ .host ∨ i.agent = .host) := by
  have hword := encode_of_decode h
  simp only [fetch, PortInputs.ofWord, h]
  cases i with
  | reset => exact ⟨.reset, by simp [PortInputs.take, hword], by simp⟩
  | sample raw gate =>
    have hcanon : encode (.sample (BitVec.ofInt 32 raw).toInt gate) = e := by
      rw [← hword]
      cases gate <;> simp only [encode, BitVec.ofInt_toInt]
    exact ⟨.sample, by simp [PortInputs.take, -BitVec.toInt_ofInt, hcanon], by simp⟩
  | tick mask => exact ⟨.tick, by simp [PortInputs.take, hword], by simp⟩
  | settext | textdata | rdmag | rdpol | rdfired => exact ⟨.host, by simp [PortInputs.take], .inr rfl⟩

end Sys2Proof.Machine
end

section
/-! SUPPORT. Events of different parts of the block do not see each other's registers (R66 to R70): what each event reads
and writes, as equations between its performances on states that differ elsewhere only. -/

namespace Sys2Proof

variable {i : Instr}

theorem Instr.eq_sample_of_agent (h : i.agent = .sampling) : ∃ raw gate, i = .sample raw gate := by
  cases i with
  | sample raw gate => exact ⟨raw, gate, rfl⟩
  | reset | tick | settext | textdata | rdmag | rdpol | rdfired => cases h

theorem Instr.eq_tick_of_agent (h : i.agent = .timer) : ∃ mask, i = .tick mask := by
  cases i with
  | tick mask => exact ⟨mask, rfl⟩
  | reset | sample | settext | textdata | rdmag | rdpol | rdfired => cases h

end Sys2Proof

namespace Sys2Proof.Machine

variable {s t s1 s2 : State} {i j : Instr} {f g : State → State}

/-! ## Two events, each performed as an update the other does not see -/

/-- If `i` acts on `s` as the update `f`, `j` as the update `g`, each event does the same before and after the other's
update, and the updates commute, then the events commute on `s`. -/
theorem exec_comm (hi : exec i s = .next (f s)) (hj : exec j s = .next (g s))
    (hjf : exec j (f s) = Result.map f (exec j s)) (hig : exec i (g s) = Result.map g (exec i s))
    (hfg : f (g s) = g (f s)) : ∃ t, exec j (f s) = .next t ∧ exec i (g s) = .next t :=
  ⟨f (g s), by rw [hjf, hj, Result.map], by rw [hig, hi, Result.map, hfg]⟩

/-! ## Events of the panel (part T of R70) -/

/-- The update `f` touches nothing that the events of the panel (`TICK`, `SETTEXT`, `TEXTDATA`, and `RDFIRED` but for its
response) read or write: it keeps what they read and can be done before or after each of their writes. -/
structure OutsidePanel (f : State → State) : Prop where
  cfg : ∀ s, (f s).cfg = s.cfg
  btn : ∀ s, (f s).btn = s.btn
  fired : ∀ s, (f s).fired = s.fired
  mem : ∀ s, (f s).mem = s.mem
  disp : ∀ s, (f s).disp = s.disp
  faulted : ∀ s, (f s).faulted = s.faulted
  text : ∀ s, (f s).text = s.text
  setButtons : ∀ s b, (f s).setButtons b = f (s.setButtons b)
  setFired : ∀ s b, (f s).setFired b = f (s.setFired b)
  setMem : ∀ s m, (f s).setMem m = f (s.setMem m)
  setDisp : ∀ s d, (f s).setDisp d = f (s.setDisp d)
  setAssembly : ∀ s a, (f s).setAssembly a = f (s.setAssembly a)
  setFault : ∀ s b c, (f s).setFault b c = f (s.setFault b c)
  emitDisplay : ∀ s w, (f s).emitDisplay w = f (s.emitDisplay w)

/-- A response is outside the panel. -/
theorem outsidePanel_respond (w : ResponseWord) : OutsidePanel (·.respond w) := by
  constructor <;> intros <;> rfl

namespace OutsidePanel

variable (hf : OutsidePanel f) (s : State)
include hf

theorem cell (k : Nat) : (f s).cell k = s.cell k := by
  simp only [State.cell, hf.cfg, hf.mem]

theorem raise (k : FaultKind) : raise k (f s) = f (raise k s) := by
  simp only [Machine.raise, hf.faulted, hf.setFault]
  split <;> rfl

theorem raiseBadSequence : raiseBadSequence (f s) = f (raiseBadSequence s) := by
  simp only [Machine.raiseBadSequence, hf.faulted, hf.raise, hf.setAssembly]
  split <;> rfl

theorem unlessFaulted {effect : State → State} (h : effect (f s) = f (effect s)) :
    unlessFaulted (f s) effect = f (unlessFaulted s effect) := by
  simp only [Machine.unlessFaulted, hf.faulted, h]
  split <;> rfl

theorem hostEvent {effect : State → State} (h : effect (f s) = f (effect s)) :
    hostEvent (f s) effect = f (hostEvent s effect) := by
  refine hf.unlessFaulted s ?_
  simp only [hf.text, hf.raiseBadSequence, h]
  split <;> rfl

theorem displayAdvance : displayAdvance (f s) = Result.map f (displayAdvance s) := by
  have hrow : displayPositionRow (f s) = f (displayPositionRow s) := by
    simp only [displayPositionRow, hf.cfg, hf.disp, hf.emitDisplay, hf.setDisp]
  have hcolumn : displayPositionColumn (f s) = f (displayPositionColumn s) := by
    simp only [displayPositionColumn, hf.cfg, hf.disp, hf.emitDisplay, hf.setDisp]
  have hemit : displayEmit (f s) = f (displayEmit s) := by
    simp only [displayEmit, hf.cfg, hf.disp, hf.cell, hf.emitDisplay, hf.setDisp]
  have hidle : displayIdle (f s) = f (displayIdle s) := by
    simp only [displayIdle, hf.disp, hf.setDisp]
    split <;> rfl
  simp only [Machine.displayAdvance, atCursor, hf.cfg, hf.disp, hrow, hcolumn, hemit, hidle]
  cases s.disp.stage
  · rfl
  all_goals
    dsimp only
    split <;> rfl

theorem debounceAdvance (mask : BitVec 5) : debounceAdvance mask (f s) = f (debounceAdvance mask s) := by
  simp only [Machine.debounceAdvance, hf.cfg, hf.btn, hf.fired, hf.setButtons, hf.setFired]

theorem exec_tick (mask : BitVec 5) : exec (.tick mask) (f s) = Result.map f (exec (.tick mask) s) := by
  simp only [exec, execTick, tickEffect, hf.faulted, hf.displayAdvance]
  split
  · rfl
  · cases Machine.displayAdvance s with
    | next u => simp only [Result.map, hf.debounceAdvance]
    | fault | refused => rfl

theorem performText (row col : Nat) (bytes : List Byte) :
    performText row col bytes (f s) = f (performText row col bytes s) := by
  simp only [Machine.performText, markDirty, hf.cfg, hf.mem, hf.setMem, hf.disp, hf.setDisp]
  split <;> rfl

theorem exec_settext (row col len : Nat) :
    exec (.settext row col len) (f s) = Result.map f (exec (.settext row col len) s) := by
  refine congrArg Host.Outcome.next (hf.hostEvent s ?_)
  simp only [hf.performText, hf.setAssembly]
  split <;> rfl

theorem exec_textdata (byte : Byte) : exec (.textdata byte) (f s) = Result.map f (exec (.textdata byte) s) := by
  refine congrArg Host.Outcome.next (hf.unlessFaulted s ?_)
  simp only [textdataEffect, hf.text, hf.raiseBadSequence, hf.setAssembly, hf.performText]
  split <;> rfl

/-- `RDFIRED` responds too, so the update must leave the responses alone. -/
theorem exec_rdfired (hrespond : ∀ s w, (f s).respond w = f (s.respond w)) (idx : Nat) :
    exec (.rdfired idx) (f s) = Result.map f (exec (.rdfired idx) s) := by
  refine congrArg Host.Outcome.next (hf.hostEvent s ?_)
  simp only [rdfiredEffect, clearFired, hf.fired, hf.raise, hrespond, hf.setFired]
  split <;> rfl

end OutsidePanel

/-! ## What a `TICK` writes -/

/-- `s` with the buttons, the display registers and the display words of `u`: all that a `TICK` can write (R142). -/
def State.withTicked (s u : State) : State :=
  { s with btn := u.btn, fired := u.fired, disp := u.disp, displayOut := u.displayOut }

theorem tick_frame {mask : BitVec 5} (h : exec (.tick mask) s = .next t) : t = s.withTicked t := by
  cases hf : s.faulted
  · obtain ⟨u, hu, rfl⟩ := execTick_cases hf h
    rw [debounceAdvance_frame, displayAdvance_frame hu]
    rfl
  · obtain rfl : s = t := by simpa [exec, execTick, hf] using h
    rfl

/-! ## Events of the measurement (part S of R70) -/

/-- `s` with the measurement of `u`: all that a `SAMPLE` that does not fault can write. -/
def State.withMeasurement (s u : State) : State :=
  { s with demod := u.demod, published := u.published, publishHalf := u.publishHalf, publishOut := u.publishOut }

/-- `s` with the panel and the responses of `u`: all that an event of the panel that does not fault can write. -/
def State.withPanel (s u : State) : State :=
  { s with btn := u.btn, fired := u.fired, mem := u.mem, disp := u.disp, text := u.text, displayOut := u.displayOut
           responses := u.responses }

theorem outsidePanel_withMeasurement (u : State) : OutsidePanel (·.withMeasurement u) := by
  constructor <;> intros <;> rfl

@[simp] theorem State.withPanel_cfg (s u : State) : (s.withPanel u).cfg = s.cfg := rfl
@[simp] theorem State.withPanel_demod (s u : State) : (s.withPanel u).demod = s.demod := rfl
@[simp] theorem State.withPanel_faulted (s u : State) : (s.withPanel u).faulted = s.faulted := rfl

theorem raise_withPanel (k : FaultKind) (s u : State) : raise k (s.withPanel u) = (raise k s).withPanel u := by
  cases hf : s.faulted
  · rw [raise_of_good hf, raise_of_good (s := s.withPanel u) hf]
    rfl
  · rw [raise_of_faulted hf, raise_of_faulted (s := s.withPanel u) hf]

theorem publish_withPanel (a : Accumulated) (q : Int) (s u : State) :
    publish a q (s.withPanel u) = (publish a q s).withPanel u := by
  cases hat : s.cfg.publishAtomic
  · rw [publish_of_nonatomic hat, publish_of_nonatomic (s := s.withPanel u) hat]
    rfl
  · rw [publish_of_atomic hat, publish_of_atomic (s := s.withPanel u) hat]
    rfl

theorem sampleEffect_withPanel (raw : Int) (gate : Bool) (s u : State) :
    sampleEffect raw gate (s.withPanel u) = (sampleEffect raw gate s).withPanel u := by
  simp only [sampleEffect, State.withPanel_cfg, State.withPanel_demod, raise_withPanel, publish_withPanel]
  split
  · rfl
  · split
    · split <;> rfl
    · rfl

/-- `SAMPLE` neither reads nor writes the panel or the responses. -/
theorem exec_sample_withPanel (raw : Int) (gate : Bool) (s u : State) :
    exec (.sample raw gate) (s.withPanel u) = Result.map (·.withPanel u) (exec (.sample raw gate) s) := by
  refine congrArg Host.Outcome.next ?_
  simp only [unlessFaulted, State.withPanel_faulted, sampleEffect_withPanel]
  split <;> rfl

/-- A `SAMPLE` that does not fault writes the measurement only. -/
theorem sample_frame {raw : Int} {gate : Bool} (h : exec (.sample raw gate) s = .next t) (ht : t.good) :
    t = s.withMeasurement t := by
  cases exec_performed h with
  | ignored | accumulated => rfl
  | published => rw [publish_frame]; rfl
  | raised => cases ht
  | badSequence _ _ hagent => cases hagent

/-- An event of the panel, or a read, that does not fault writes the panel and responds, no more. -/
theorem panel_frame (hsample : i.agent ≠ .sampling) (hreset : i ≠ .reset) (h : exec i s = .next t) (ht : t.good) :
    t = s.withPanel t := by
  cases exec_performed h with
  | reset => exact absurd rfl hreset
  | accumulated | published => exact absurd rfl hsample
  | raised | badSequence => cases ht
  | ticked =>
    rw [tick_frame h]
    rfl
  | emptyText | textPerformed =>
    unfold performText
    split <;> rfl
  | ignored | textOpened | byteAppended | magnitudeRead | polarityRead | firedRead => rfl

/-! ## The reads of the published pair -/

/-- A host event that leaves the block unfaulted found it ready. -/
theorem hostReady_of_hostEvent_good {effect : State → State} (h : (hostEvent s effect).good) : s.hostReady := by
  cases hf : s.faulted
  · refine ⟨hf, by_contra fun hn => ?_⟩
    rw [hostEvent_of_owed hf hn, raiseBadSequence_of_good hf] at h
    cases h
  · rw [hostEvent_of_faulted hf] at h
    exact absurd (hf.symm.trans h) nofun

/-- A read responds with a word made of the published pair (R125, R126). -/
theorem exec_read (hi : i = .rdmag ∨ i = .rdpol) : ∃ word : PublishedMeasurement → ResponseWord,
    ∀ s, exec i s = .next (hostEvent s fun s => s.respond (word s.published)) := by
  rcases hi with rfl | rfl
  · exact ⟨fun p => p.magnitude, fun _ => rfl⟩
  · exact ⟨fun p => polarityResponse p.polarity, fun _ => rfl⟩

/-- A read that does not fault responds, with a word that no `TICK` changes. -/
theorem read_responds (hi : i = .rdmag ∨ i = .rdpol) (h : exec i s = .next t) (ht : t.good) :
    ∃ w, t = s.respond w ∧ ∀ u, exec i (s.withTicked u) = .next ((s.respond w).withTicked u) := by
  obtain ⟨word, hword⟩ := exec_read hi
  obtain rfl := Host.Outcome.next.inj ((hword s).symm.trans h)
  obtain ⟨hf, hn⟩ := hostReady_of_hostEvent_good ht
  refine ⟨word s.published, hostEvent_of_ready hf hn _, fun u => ?_⟩
  rw [hword, hostEvent_of_ready (s := s.withTicked u) hf hn]
  rfl

/-! ## The pairs -/

/-- A `SAMPLE` commutes with an event that is blind to the measurement, where neither faults. -/
theorem sample_comm {raw : Int} {gate : Bool} (hsample : j.agent ≠ .sampling) (hreset : j ≠ .reset)
    (hblind : ∀ u, exec j (s.withMeasurement u) = Result.map (·.withMeasurement u) (exec j s))
    (hi : exec (.sample raw gate) s = .next s1) (hj : exec j s = .next s2) (h1 : s1.good) (h2 : s2.good) :
    ∃ t, exec j s1 = .next t ∧ exec (.sample raw gate) s2 = .next t := by
  have e1 := sample_frame hi h1
  have e2 := panel_frame hsample hreset hj h2
  have h := exec_comm (f := (·.withMeasurement s1)) (g := (·.withPanel s2)) (hi.trans (congrArg _ e1))
    (hj.trans (congrArg _ e2)) (hblind s1) (exec_sample_withPanel raw gate s s2) rfl
  rwa [← e1, ← e2] at h

/-- A read of the published pair commutes with a `TICK`, where the read does not fault. -/
theorem read_tick_comm {mask : BitVec 5} (hread : i = .rdmag ∨ i = .rdpol) (hi : exec i s = .next s1)
    (hj : exec (.tick mask) s = .next s2) (h1 : s1.good) :
    ∃ t, exec (.tick mask) s1 = .next t ∧ exec i s2 = .next t := by
  obtain ⟨w, rfl, hw⟩ := read_responds hread hi h1
  have e2 := tick_frame hj
  have h := exec_comm (f := (·.respond w)) (g := (·.withTicked s2)) hi (hj.trans (congrArg _ e2))
    ((outsidePanel_respond w).exec_tick s mask) ((hw s2).trans (by rw [hi, Result.map])) rfl
  rwa [← e2] at h

end Sys2Proof.Machine
end

section
/-! PROOFS. The statements on runs, steps and the order of events. -/

namespace Sys2Proof.Machine

/-- Settles O54, by induction on the number of steps: the invariant gives a next step, which keeps it. -/
theorem noRunStopsFromTheDisplayInvariant : Obligations.NoRunStopsFromTheDisplayInvariant := by
  intro n
  induction n with
  | zero => exact fun s hs => ⟨s, rfl, hs⟩
  | succ n ih =>
    intro s hs
    obtain ⟨u, hu⟩ := step_next hs.cursorReady
    obtain ⟨t, hrun, ht⟩ := ih u (step_displayInv hs hu)
    exact ⟨t, (run_succ n hu).trans hrun, ht⟩

/-- Settles O13: every event, every fault and the second step of a publish leave the configuration. -/
theorem noStepChangesTheConfiguration : Obligations.NoStepChangesTheConfiguration := fun _ _ => step_cfg

/-- Settles O14, port by port from `step_sendsAtMostOne`. -/
theorem stepSendsAtMostOneWordPerPort : Obligations.StepSendsAtMostOneWordPerPort := fun _ _ =>
  step_sendsAtMostOne

/-- Settles O45. A `SAMPLE` writes the measurement only and is blind to the panel, an event of the panel the other way
round; a read responds, and a `TICK` is blind to responses. -/
theorem eventsOfTheTwoPartsCommute : Obligations.EventsOfTheTwoPartsCommute := by
  intro i j s s1 s2 hpair hi hj h1 h2
  have hout := outsidePanel_withMeasurement
  rcases hpair with ⟨hs, ht | ⟨idx, rfl⟩⟩ | ⟨hs, ⟨row, col, len, rfl⟩ | ⟨byte, rfl⟩⟩ | ⟨hread, ht⟩
  · obtain ⟨raw, gate, rfl⟩ := Instr.eq_sample_of_agent hs
    obtain ⟨mask, rfl⟩ := Instr.eq_tick_of_agent ht
    exact sample_comm nofun nofun (fun u => (hout u).exec_tick s mask) hi hj h1 h2
  · obtain ⟨raw, gate, rfl⟩ := Instr.eq_sample_of_agent hs
    exact sample_comm nofun nofun (fun u => (hout u).exec_rdfired s (fun _ _ => rfl) idx) hi hj h1 h2
  · obtain ⟨raw, gate, rfl⟩ := Instr.eq_sample_of_agent hs
    exact sample_comm nofun nofun (fun u => (hout u).exec_settext s row col len) hi hj h1 h2
  · obtain ⟨raw, gate, rfl⟩ := Instr.eq_sample_of_agent hs
    exact sample_comm nofun nofun (fun u => (hout u).exec_textdata s byte) hi hj h1 h2
  · obtain ⟨mask, rfl⟩ := Instr.eq_tick_of_agent ht
    exact read_tick_comm hread hi hj h1

/-- Settles O8: no publish comes first, since none is open or the event may fall into it, and the word breaks no text. -/
theorem stepPerformsTheDecodedEvent : Obligations.StepPerformsTheDecodedEvent := by
  intro s port e rest i hf hd hopen hport
  have hfalls : i.agent = .host → fallsBetween e = true := fun h => by simp [fallsBetween, hd, h]
  rw [step_of_fetch hf (hopen.imp_right hfalls)]
  exact perform_of_decode hd (breaksText_eq_false hport)

/-- Settles O9 from O8: the word placed is fetched at the port of its agent, on the state as it was. -/
theorem placedWordIsPerformedNext : Obligations.PlacedWordIsPerformedNext := by
  intro s w i hw hhalf hd
  obtain ⟨port, hfetch, hport⟩ := fetch_ofWord hd s.inputs
  have hplaced : s.withFetchWord 40 w = s.setInputs (PortInputs.ofWord (BitVec.ofNat 40 w) :: s.inputs) := by
    simp only [State.withFetchWord, Nat.mod_eq_of_lt hw, settlePublish, hhalf, ite_self]
  rw [hplaced]
  exact stepPerformsTheDecodedEvent _ port _ s.inputs i hfetch hd (.inl (by simp [publishOpen, hhalf]))
    (hport.imp_right .inl)

end Sys2Proof.Machine
end

section
/-! SUPPORT. The invariants of the block: where each holds, and why every event keeps it. -/

namespace Sys2Proof.Machine

variable {s t : State} {i : Instr}

/-! ## Frames -/

/-- A text writes the frame buffer and the display registers, nothing else (R152). -/
theorem performText_frame (row col : Nat) (bytes : List Byte) (s : State) :
    performText row col bytes s =
      { s with mem := (performText row col bytes s).mem, disp := (performText row col bytes s).disp } := by
  unfold performText
  split <;> rfl

@[simp] theorem performText_btn (row col : Nat) (bytes : List Byte) (s : State) :
    (performText row col bytes s).btn = s.btn := by
  rw [performText_frame]

/-- No event but `TICK` and `RESET` writes a button (R68). -/
theorem Performed.btn_eq (h : Performed i s t) (htick : i.agent ≠ .timer) (hreset : i ≠ .reset) : t.btn = s.btn := by
  cases h with
  | reset => exact absurd rfl hreset
  | ticked => exact absurd rfl htick
  | published => rw [publish_frame]
  | emptyText | textPerformed => exact performText_btn ..
  | ignored | raised | badSequence | accumulated | textOpened | byteAppended | magnitudeRead | polarityRead
  | firedRead => rfl

/-- The two steps of a `TICK` together write what a `TICK` can write, nothing else (R142). -/
theorem ticked_frame {u : State} (mask : BitVec 5) (hd : displayAdvance s = .next u) :
    debounceAdvance mask u = s.withTicked (debounceAdvance mask u) := by
  rw [debounceAdvance_frame, displayAdvance_frame hd]
  rfl

/-! ## The demodulator (R26) -/

/-- The registers hold the four checked values exactly, where no check fails (R124). -/
theorem Accumulated.registers_exact {a : Accumulated} (h : a.overflow = none) :
    a.registers.signedAccumulator.toInt = a.acc ∧ a.registers.positiveSum.toInt = a.ps ∧
      a.registers.negativeSum.toInt = a.ns ∧ a.registers.sampleCount.toNat = a.sc := by
  obtain ⟨hacc, hps, hns, hsc⟩ := Accumulated.overflow_eq_none.mp h
  exact ⟨toInt_ofInt64 hacc, toInt_ofInt64 hps, toInt_ofInt64 hns, toNat_ofNat32 hsc⟩

/-- A count of transitions that is at most the count of samples fits its register too: it needs no check (R124). -/
theorem Accumulated.registers_gateCount {a : Accumulated} (h : a.overflow = none) (hle : a.gc ≤ a.sc) :
    a.registers.gateCount.toNat = a.gc := by
  obtain ⟨_, _, _, hsc⟩ := Accumulated.overflow_eq_none.mp h
  refine toNat_ofNat32 ?_
  simp only [fitsU32, decide_eq_true_eq] at hsc ⊢
  omega

theorem accumulate_sc_pos (c : Config) (d : DemodulationState) (raw : Int) (gate : Bool) :
    0 < (accumulate c d raw gate).sc := Nat.succ_pos _

/-- A sample adds to the accumulator what it adds to the positive sum, or takes from it what it adds to the negative one. -/
theorem accumulate_acc {c : Config} {d : DemodulationState}
    (h : d.signedAccumulator.toInt = d.positiveSum.toInt - d.negativeSum.toInt) (raw : Int) (gate : Bool) :
    (accumulate c d raw gate).acc = (accumulate c d raw gate).ps - (accumulate c d raw gate).ns := by
  cases gate
  all_goals
    simp only [accumulate, h, if_true, Bool.false_eq_true, if_false]
    omega

/-- A sample counts at most one transition. -/
theorem accumulate_gc_le_sc {c : Config} {d : DemodulationState} (h : d.gateCount.toNat ≤ d.sampleCount.toNat)
    (raw : Int) (gate : Bool) : (accumulate c d raw gate).gc ≤ (accumulate c d raw gate).sc := by
  simp only [accumulate]
  split <;> omega

/-- Where samples were counted, a publish is due exactly at the threshold (R115, R119). -/
theorem publishDue_eq_false {c : Config} {a : Accumulated} (hsc : 0 < a.sc) :
    publishDue c a = false ↔ a.gc < c.cycleThreshold := by
  have hne : a.sc ≠ 0 := by omega
  simp [publishDue, hne]

/-- An empty window satisfies the invariant. -/
theorem demodInv_of_zero {prevGate : Bool} (h : s.demod = ⟨0, 0, 0, 0, 0, prevGate⟩) : DemodInv s := by
  have hpos := s.cfg.cycleThreshold_legal
  simp only [DemodInv, h]
  exact ⟨by decide, fun _ => hpos.1, by decide, by decide⟩

/-- The registers of a sample that no check refuses satisfy the invariant, if the publish it owes is begun. -/
theorem demodInv_of_accumulate (hs : DemodInv s) {raw : Int} {gate : Bool}
    (hfit : (accumulate s.cfg s.demod raw gate).overflow = none)
    (hdemod : t.demod = (accumulate s.cfg s.demod raw gate).registers)
    (hdue : t.publishHalf = none → (accumulate s.cfg s.demod raw gate).gc < t.cfg.cycleThreshold) : DemodInv t := by
  obtain ⟨hdiff, _, hcount, _⟩ := hs
  have hle := accumulate_gc_le_sc (c := s.cfg) hcount raw gate
  have hgc := Accumulated.registers_gateCount hfit hle
  obtain ⟨hacc, hps, hns, hsc⟩ := Accumulated.registers_exact hfit
  rw [DemodInv, hdemod, hacc, hps, hns, hsc, hgc]
  refine ⟨accumulate_acc hdiff raw gate, hdue, hle, fun hzero => ?_⟩
  have hpos := accumulate_sc_pos s.cfg s.demod raw gate
  rw [← hsc, hzero] at hpos
  exact absurd hpos (by decide)

/-- A publish empties the window, or owes its second step (R120, R241). -/
theorem publish_demodInv (hs : DemodInv s) {raw : Int} {gate : Bool}
    (hfit : (accumulate s.cfg s.demod raw gate).overflow = none) (q : Int) :
    DemodInv (publish (accumulate s.cfg s.demod raw gate) q s) := by
  cases hat : s.cfg.publishAtomic
  · rw [publish_of_nonatomic hat]
    exact demodInv_of_accumulate hs hfit rfl nofun
  · rw [publish_of_atomic hat]
    exact demodInv_of_zero rfl

theorem Performed.demodInv (h : Performed i s t) (hs : DemodInv s) : DemodInv t := by
  cases h with
  | reset => exact demodInv_of_zero rfl
  | accumulated _ _ _ _ hfit hdue =>
    exact demodInv_of_accumulate hs hfit rfl fun _ => (publishDue_eq_false (accumulate_sc_pos ..)).mp hdue
  | published _ _ _ q _ hfit => exact publish_demodInv hs hfit q
  | ticked _ _ mask _ hd => rw [ticked_frame mask hd]; exact hs
  | emptyText | textPerformed => rw [performText_frame]; exact hs
  | ignored | raised | badSequence | textOpened | byteAppended | magnitudeRead | polarityRead | firedRead => exact hs

theorem step_demodInv (hs : DemodInv s) (h : step s = .next t) : DemodInv t :=
  step_keeps (fun _ _ hu => hu) (fun _ _ _ hu => hu) (fun _ _ hu => hu) (fun _ _ _ _ _ => demodInv_of_zero rfl)
    (fun _ _ _ _ _ hu hx => (exec_performed hx).demodInv hu) hs h

/-! ## The buttons (R192, R193) -/

/-- A count below every threshold's bound stays there: it is counted up only short of its own stage's threshold. -/
theorem buttonAdvance_holdTicks_lt {c : Config} {b : ButtonState} {n : Nat} (hn : ∀ st, stageThreshold c st ≤ n)
    (hb : b.holdTicks.toNat < n) (held : Bool) : (buttonAdvance c held b).holdTicks.toNat < n := by
  have hzero : (0 : BitVec 32).toNat < n := Nat.lt_of_lt_of_le (stageThreshold_range c .idle).1 (hn .idle)
  cases held
  · show (holdAfterRelease c b).toNat < n
    unfold holdAfterRelease
    split
    · exact hzero
    all_goals
      split
      · exact hb
      · exact hzero
  · by_cases hev : stageThreshold c b.stage ≤ b.holdTicks.toNat + 1
    · rw [buttonAdvance_event hev]
      exact hzero
    · obtain ⟨hcount, hexact⟩ := buttonAdvance_count (Nat.lt_of_not_le hev)
      rw [hcount]
      exact hexact.trans_lt (Nat.lt_of_lt_of_le (Nat.lt_of_not_le hev) (hn b.stage))

/-- Each stage's threshold is one of the three of R192. -/
theorem stageThreshold_le_max (c : Config) (st : ButtonStage) :
    stageThreshold c st ≤ max (max c.onThreshold c.repeatDelay) c.repeatPeriod := by
  cases st <;> simp [stageThreshold]

theorem debounceAdvance_holdInv (hs : HoldInv s) (mask : BitVec 5) : HoldInv (debounceAdvance mask s) := by
  intro b
  rw [debounceAdvance_btn]
  exact buttonAdvance_holdTicks_lt (stageThreshold_le_max s.cfg) (hs b) _

@[simp] theorem resetBlock_btn (s : State) (b : Fin 5) : (resetBlock s).btn.get b = .zero := Five.get_ofFn _ b

theorem resetBlock_holdInv (s : State) : HoldInv (resetBlock s) := by
  intro b
  rw [resetBlock_btn]
  exact Nat.lt_of_lt_of_le (stageThreshold_range s.cfg .idle).1 (stageThreshold_le_max s.cfg .idle)

theorem Performed.holdInv (h : Performed i s t) (hs : HoldInv s) : HoldInv t := by
  cases h with
  | reset => exact resetBlock_holdInv s
  | ticked _ u mask _ hd =>
    have hu : HoldInv u := by rw [displayAdvance_frame hd]; exact hs
    exact debounceAdvance_holdInv hu mask
  | published => rw [publish_frame]; exact hs
  | emptyText | textPerformed => rw [performText_frame]; exact hs
  | ignored | raised | badSequence | accumulated | textOpened | byteAppended | magnitudeRead | polarityRead
  | firedRead => exact hs

theorem step_holdInv (hs : HoldInv s) (h : step s = .next t) : HoldInv t :=
  step_keeps (fun _ _ hu => hu) (fun _ _ _ hu => hu) (fun _ _ hu => hu) (fun _ _ _ _ hu => hu)
    (fun _ _ _ _ _ hu hx => (exec_performed hx).holdInv hu) hs h

end Sys2Proof.Machine
end

section
/-! SUPPORT. The fault port, the dirty flag and the frame buffer along events and steps, and the state after `RESET`. -/

namespace Sys2Proof.Machine

variable {s t : State} {i : Instr}

/-! ## The fault port (R31, R205) -/

/-- A fault's code is one of those of R205. -/
theorem FaultKind.code_mem (f : FaultKind) :
    f.code ∈ ([0x00, 0x01, 0x02, 0x03, 0x10, 0x11, 0x12, 0x13, 0x14] : List (BitVec 8)) := by
  cases f with
  | arithRange reg => cases reg <;> simp [FaultKind.code, ArithReg.code]
  | illegalWord | badSequence | badIndex => simp [FaultKind.code]

theorem setFault_faultInv (s : State) (f : FaultKind) : FaultInv (s.setFault true f.code) :=
  ⟨⟨nofun, fun h => absurd h f.code_ne_zero⟩, f.code_mem⟩

theorem faultInv_of_good (hf : s.faulted = false) (hcode : s.faultCode = 0) : FaultInv s := by
  simp [FaultInv, hf, hcode]

theorem Performed.faultInv (h : Performed i s t) (hs : FaultInv s) : FaultInv t := by
  cases h with
  | reset => exact faultInv_of_good rfl rfl
  | raised _ _ f => exact setFault_faultInv s f
  | badSequence => exact setFault_faultInv s .badSequence
  | published => rw [publish_frame]; exact hs
  | ticked _ _ mask _ hd => rw [ticked_frame mask hd]; exact hs
  | emptyText | textPerformed => rw [performText_frame]; exact hs
  | ignored | accumulated | textOpened | byteAppended | magnitudeRead | polarityRead | firedRead => exact hs

theorem step_faultInv (hs : FaultInv s) (h : step s = .next t) : FaultInv t :=
  step_keeps (fun _ _ hu => hu) (fun u f _ _ => setFault_faultInv u f) (fun u _ _ => setFault_faultInv u .badSequence)
    (fun _ _ _ _ hu => hu) (fun _ _ _ _ _ hu hx => (exec_performed hx).faultInv hu) hs h

/-! ## The frame buffer (R38, R60) -/

theorem performText_memoryInv (row col : Nat) (bytes : List Byte) (hs : MemoryInv s) :
    MemoryInv (performText row col bytes s) := by
  unfold performText
  split
  · exact hs
  · exact Memory.wf_copyText bytes (linearOffset s.cfg row col) hs

theorem Performed.memoryInv (h : Performed i s t) (hs : MemoryInv s) : MemoryInv t := by
  cases h with
  | reset => exact (rfl : Memory.wf s.cfg [] = true)
  | published => rw [publish_frame]; exact hs
  | ticked _ _ mask _ hd => rw [ticked_frame mask hd]; exact hs
  | emptyText | textPerformed => exact performText_memoryInv _ _ _ hs
  | ignored | raised | badSequence | accumulated | textOpened | byteAppended | magnitudeRead | polarityRead
  | firedRead => exact hs

theorem step_memoryInv (hs : MemoryInv s) (h : step s = .next t) : MemoryInv t :=
  step_keeps (P := MemoryInv) (fun _ _ hu => hu) (fun _ _ _ hu => hu) (fun _ _ hu => hu) (fun _ _ _ _ hu => hu)
    (fun _ _ _ _ _ hu hx => (exec_performed hx).memoryInv hu) hs h

/-- A listed cell reads as its listed byte. -/
theorem Memory.read_of_mem (c : Config) {m : Memory} (h : Memory.rising m = true) {p : Host.Cell} (hp : p ∈ m) :
    Memory.read c m p.1 = p.2 := by
  induction m with
  | nil => cases hp
  | cons q m ih =>
    obtain ⟨hlo, hm⟩ := Memory.rising_cons.mp h
    rcases List.mem_cons.mp hp with rfl | hp
    · exact if_pos rfl
    · exact (if_neg (hlo p hp).ne').trans (ih hm hp)

/-- A cell that does not read as its reset byte is listed, with the byte it reads as. -/
theorem Memory.mem_of_read_ne (c : Config) {m : Memory} {k : Nat} (h : Memory.read c m k ≠ c.fbResetAt k) :
    (k, Memory.read c m k) ∈ m := by
  induction m with
  | nil => exact absurd rfl h
  | cons q m ih =>
    obtain ⟨a, v⟩ := q
    by_cases hk : k = a
    · subst hk
      simp [Memory.read]
    · rw [Memory.read, if_neg hk] at h ⊢
      exact List.mem_cons_of_mem _ (ih h)

/-- In canonical form the listed cells are the existing ones that do not read as their reset byte. -/
theorem Memory.mem_iff_of_wf {c : Config} {m : Memory} (h : Memory.wf c m = true) (p : Host.Cell) :
    p ∈ m ↔ p.1 < c.cells ∧ Memory.read c m p.1 = p.2 ∧ p.2 ≠ c.fbResetAt p.1 := by
  obtain ⟨hr, hall⟩ := Memory.wf_iff.mp h
  constructor
  · intro hp
    exact ⟨(hall p hp).1, Memory.read_of_mem c hr hp, (hall p hp).2⟩
  · rintro ⟨_, hread, hne⟩
    rw [← hread] at hne
    simpa only [hread] using Memory.mem_of_read_ne c hne

theorem Memory.pairwise_of_rising {m : Memory} (h : Memory.rising m = true) : m.Pairwise (·.1 < ·.1) := by
  induction m with
  | nil => exact .nil
  | cons q m ih =>
    obtain ⟨hlo, hm⟩ := Memory.rising_cons.mp h
    exact .cons hlo (ih hm)

/-- Two rising lists of the same cells are the same list. -/
theorem Memory.eq_of_rising {m n : Memory} (hm : Memory.rising m = true) (hn : Memory.rising n = true)
    (h : ∀ p, p ∈ m ↔ p ∈ n) : m = n := by
  have hm := Memory.pairwise_of_rising hm
  have hn := Memory.pairwise_of_rising hn
  have hne : ∀ {p q : Host.Cell}, p.1 < q.1 → p ≠ q := fun hlt heq => hlt.ne (congrArg Prod.fst heq)
  have hperm : m.Perm n := (List.perm_ext_iff_of_nodup (hm.imp hne) (hn.imp hne)).mpr h
  exact hperm.eq_of_pairwise (fun _ _ _ _ hpq hqp => absurd hpq hqp.asymm) hm hn

/-! ## The dirty flag (R41, R164) -/

@[simp] theorem afterEmit_dirty (c : Config) (d : DisplayRegs) : (afterEmit c d).dirty = d.dirty := by
  unfold afterEmit
  dsimp only
  split
  · rfl
  · split <;> rfl

theorem performText_dirty (row col : Nat) (bytes : List Byte) (hs : s.disp.dirty = true) :
    (performText row col bytes s).disp.dirty = true := by
  unfold performText
  split
  · exact hs
  · rfl

/-- The display step leaves a set flag, unless it starts a pass (R157). -/
theorem displayAdvance_dirty (hs : s.disp.dirty = true) (h : displayAdvance s = .next t) :
    t.disp.dirty = true ∨ (s.disp.stage = .idle ∧ t.disp.stage = .positionRow ∧ t.disp.cursor = 0) := by
  rcases displayAdvance_cases h with ⟨_, _, rfl⟩ | ⟨hst, _, rfl⟩ | ⟨_, _, rfl⟩ | ⟨_, _, rfl⟩ | ⟨_, _, rfl⟩
  · exact .inl hs
  · exact .inr ⟨hst, rfl, rfl⟩
  · exact .inl hs
  · exact .inl hs
  · exact .inl ((afterEmit_dirty ..).trans hs)

theorem Performed.dirty (h : Performed i s t) (hs : s.disp.dirty = true) :
    t.disp.dirty = true ∨ i = .reset ∨
      ∃ mask, i = .tick mask ∧ s.disp.stage = .idle ∧ t.disp.stage = .positionRow ∧ t.disp.cursor = 0 := by
  cases h with
  | reset => exact .inr (.inl rfl)
  | ticked _ u mask _ hd => exact (displayAdvance_dirty hs hd).imp_right fun hpass => .inr ⟨mask, rfl, hpass⟩
  | published => rw [publish_frame]; exact .inl hs
  | emptyText | textPerformed => exact .inl (performText_dirty _ _ _ hs)
  | ignored | raised | badSequence | accumulated | textOpened | byteAppended | magnitudeRead | polarityRead
  | firedRead => exact .inl hs

/-! ## The state after `RESET` (R45, R232) -/

theorem sumBounds_of_zero {prevGate : Bool} (h : s.demod = ⟨0, 0, 0, 0, 0, prevGate⟩) : SumBounds s := by
  simp [SumBounds, h]

theorem textInv_of_none (h : s.text = .none) : TextInv s := by
  simp [TextInv, h, TextAssembly.none]

/-- `MAG_RESET` fits its register (R5, R27). -/
theorem resetBlock_magnitude (s : State) : (resetBlock s).published.magnitude.toInt = s.cfg.magReset :=
  toInt_ofInt32 (decide_eq_true s.cfg.magReset_legal)

/-- `POL_RESET` fits its register (R5, R28). -/
theorem resetBlock_polarity (s : State) : (resetBlock s).published.polarity.toInt = s.cfg.polReset := by
  have hlegal := s.cfg.polReset_legal
  exact (BitVec.toInt_ofInt ..).trans (Int.bmod_eq_of_le (by omega) (by omega))

/-- Every cell holds its byte of `FB_RESET` (R5, R45). -/
theorem resetBlock_cell (s : State) {k : Nat} (h : k < s.cfg.fbReset.length) :
    (resetBlock s).cell k = s.cfg.fbReset[k] :=
  (List.getElem_eq_getD 0).symm

/-- `State.reset` is what `RESET` makes of it. -/
theorem exec_reset_reset : exec .reset State.reset = .next State.reset := rfl

end Sys2Proof.Machine
end

section
/-! SUPPORT. The events do not see the buttons they do not advance, and none sees `press_count` (R35, R68). -/

namespace Sys2Proof.Machine

variable {s t : State} {i : Instr} (b : Five ButtonState) (counts : Five (BitVec 32))

/-! ## Events other than `TICK` and `RESET` -/

theorem raise_setButtons (k : FaultKind) (s : State) : raise k (s.setButtons b) = (raise k s).setButtons b :=
  (apply_ite (State.setButtons · b) (s.faulted = true) s (s.setFault true k.code)).symm

theorem raiseBadSequence_setButtons (s : State) :
    raiseBadSequence (s.setButtons b) = (raiseBadSequence s).setButtons b := by
  simp only [raiseBadSequence, raise_setButtons, State.setButtons_faulted]
  split <;> rfl

theorem unlessFaulted_setButtons {effect : State → State}
    (h : effect (s.setButtons b) = (effect s).setButtons b) :
    unlessFaulted (s.setButtons b) effect = (unlessFaulted s effect).setButtons b := by
  simp only [unlessFaulted, h, State.setButtons_faulted]
  split <;> rfl

theorem hostEvent_setButtons {effect : State → State} (h : effect (s.setButtons b) = (effect s).setButtons b) :
    hostEvent (s.setButtons b) effect = (hostEvent s effect).setButtons b := by
  refine unlessFaulted_setButtons b ?_
  simp only [h, raiseBadSequence_setButtons, State.setButtons_text]
  split <;> rfl

theorem performText_setButtons (row col : Nat) (bytes : List Byte) (s : State) :
    performText row col bytes (s.setButtons b) = (performText row col bytes s).setButtons b := by
  unfold performText
  rw [apply_ite (State.setButtons · b)]
  rfl

theorem textdataEffect_setButtons (byte : Byte) (s : State) :
    textdataEffect byte (s.setButtons b) = (textdataEffect byte s).setButtons b := by
  simp only [textdataEffect, State.setButtons_text, raiseBadSequence_setButtons]
  split
  · rfl
  · exact performText_setButtons b _ _ _ (s.setAssembly .none)
  · rfl

theorem rdfiredEffect_setButtons (idx : Nat) (s : State) :
    rdfiredEffect idx (s.setButtons b) = (rdfiredEffect idx s).setButtons b := by
  simp only [rdfiredEffect, raise_setButtons]
  split <;> rfl

theorem sampleEffect_setButtons (raw : Int) (gate : Bool) (s : State) :
    sampleEffect raw gate (s.setButtons b) = (sampleEffect raw gate s).setButtons b := by
  have hkeeps : sampleEffect raw gate s = (sampleEffect raw gate s).withPanel s := sampleEffect_withPanel raw gate s s
  rw [hkeeps]
  exact sampleEffect_withPanel raw gate s (s.setButtons b)

/-- No event but `TICK` and `RESET` reads or writes the buttons (R68). -/
theorem exec_setButtons (htick : i.agent ≠ .timer) (hreset : i ≠ .reset) (s : State) :
    exec i (s.setButtons b) = Result.map (·.setButtons b) (exec i s) := by
  cases i with
  | reset => exact absurd rfl hreset
  | tick => exact absurd rfl htick
  | sample raw gate => exact congrArg _ (unlessFaulted_setButtons b (sampleEffect_setButtons b raw gate s))
  | settext row col len =>
    refine congrArg _ (hostEvent_setButtons b ?_)
    rw [performText_setButtons]
    split <;> rfl
  | textdata byte => exact congrArg _ (unlessFaulted_setButtons b (textdataEffect_setButtons b byte s))
  | rdmag | rdpol => exact congrArg _ (hostEvent_setButtons b rfl)
  | rdfired idx => exact congrArg _ (hostEvent_setButtons b (rdfiredEffect_setButtons b idx s))

/-! ## `TICK` -/

theorem displayIdle_setButtons (s : State) : displayIdle (s.setButtons b) = (displayIdle s).setButtons b :=
  (apply_ite (State.setButtons · b) (s.disp.dirty = true) (s.setDisp ⟨0, .positionRow, false⟩) s).symm

theorem atCursor_setButtons {effect : State → State} (h : effect (s.setButtons b) = (effect s).setButtons b) :
    atCursor (s.setButtons b) effect = Result.map (·.setButtons b) (atCursor s effect) := by
  unfold atCursor
  rw [apply_ite (Result.map (·.setButtons b)), h]
  rfl

/-- The display step neither reads nor writes the buttons. -/
theorem displayAdvance_setButtons (s : State) :
    displayAdvance (s.setButtons b) = Result.map (·.setButtons b) (displayAdvance s) := by
  simp only [displayAdvance, State.setButtons_disp]
  cases s.disp.stage with
  | idle => exact congrArg Host.Outcome.next (displayIdle_setButtons b s)
  | positionRow | positionColumn | emit => exact atCursor_setButtons b rfl

theorem displayAdvance_withPressCounts (s : State) :
    displayAdvance (s.withPressCounts counts) = Result.map (State.withPressCounts counts) (displayAdvance s) := by
  refine (displayAdvance_setButtons _ s).trans ?_
  cases hu : displayAdvance s with
  | next u =>
    have hbtn : u.btn = s.btn := by rw [displayAdvance_frame hu]
    rw [Result.map, Result.map, State.withPressCounts, hbtn]
  | fault | refused => rfl

/-- A button's step does not read `press_count`. -/
theorem buttonAdvance_withPressCount (c : Config) (held : Bool) (b : ButtonState) (n : BitVec 32) :
    buttonAdvance c held { b with pressCount := n } = { buttonAdvance c held b with pressCount := n } := by
  cases held
  · rfl
  · by_cases hev : stageThreshold c b.stage ≤ b.holdTicks.toNat + 1
    · rw [buttonAdvance_event hev, buttonAdvance_event (b := { b with pressCount := n }) hev]
    · have hlt := Nat.lt_of_not_le hev
      rw [(buttonAdvance_count hlt).1, (buttonAdvance_count (b := { b with pressCount := n }) hlt).1]

theorem debounceAdvance_withPressCounts (mask : BitVec 5) (s : State) :
    debounceAdvance mask (s.withPressCounts counts) = (debounceAdvance mask s).withPressCounts counts := by
  simp only [State.withPressCounts, debounceAdvance, State.setFired_btn, State.setButtons_btn, State.setButtons_cfg,
    Five.get_ofFn, buttonAdvance_withPressCount]
  rfl

theorem exec_tick_withPressCounts (mask : BitVec 5) (s : State) :
    exec (.tick mask) (s.withPressCounts counts) = Result.map (State.withPressCounts counts) (exec (.tick mask) s) := by
  have hfaulted : (s.withPressCounts counts).faulted = s.faulted := rfl
  simp only [exec, execTick, tickEffect, hfaulted, displayAdvance_withPressCounts]
  split
  · rfl
  · cases displayAdvance s with
    | next u => simp only [Result.map, debounceAdvance_withPressCounts]
    | fault | refused => rfl

/-! ## Every event but `RESET` -/

theorem exec_withPressCounts (hreset : i ≠ .reset) (s : State) :
    exec i (s.withPressCounts counts) = Result.map (State.withPressCounts counts) (exec i s) := by
  by_cases htick : i.agent = .timer
  · obtain ⟨mask, rfl⟩ := Instr.eq_tick_of_agent htick
    exact exec_tick_withPressCounts counts mask s
  · refine (exec_setButtons _ htick hreset s).trans ?_
    cases hx : exec i s with
    | next t =>
      rw [Result.map, Result.map, State.withPressCounts, (exec_performed hx).btn_eq htick hreset]
    | fault | refused => rfl

theorem Performed.pressCount_eq (h : Performed i s t) (hreset : i ≠ .reset) (k : Fin 5) :
    (t.btn.get k).pressCount = (s.btn.get k).pressCount := by
  by_cases htick : i.agent = .timer
  · obtain ⟨mask, rfl⟩ := Instr.eq_tick_of_agent htick
    cases h with
    | ticked _ u _ _ hd => rw [debounceAdvance_btn, buttonAdvance_pressCount, displayAdvance_frame hd]
    | ignored | raised | badSequence => rfl
  · rw [h.btn_eq htick hreset]

end Sys2Proof.Machine
end

section
/-! PROOFS. The statements on invariants and on `RESET`. -/

namespace Sys2Proof.Machine

/-- Settles O47: `Emit` steps to a cell that exists and positions only at a row's start; no other event moves the cursor. -/
theorem stepKeepsTheDisplayInvariant : Obligations.StepKeepsTheDisplayInvariant := fun _ _ => step_displayInv

/-- Settles O48: the checks of a sample make its sums exact, and one that is not published is short of the threshold. -/
theorem stepKeepsTheDemodulatorInvariant : Obligations.StepKeepsTheDemodulatorInvariant := fun _ _ => step_demodInv

/-- Settles O50: a count goes up only while it stays short of its own stage's threshold. -/
theorem stepKeepsHoldTicksBelowTheThresholds : Obligations.StepKeepsHoldTicksBelowTheThresholds := fun _ _ => step_holdInv

/-- Settles O32: only the display step in `Idle` clears the flag, and it starts a pass. -/
theorem dirtyStaysUntilAPassStarts : Obligations.DirtyStaysUntilAPassStarts := fun _ _ _ hs h =>
  (exec_performed h).dirty hs

/-- Settles O44: a `TICK` advances each button without its `press_count`, and every other event is blind to the buttons. -/
theorem pressCountIsNeverReadOrWritten : Obligations.PressCountIsNeverReadOrWritten := by
  refine ⟨?_, fun i s counts hreset => exec_withPressCounts counts hreset s,
    fun i s t hreset h => (exec_performed h).pressCount_eq hreset⟩
  intro s t h b
  obtain rfl := Host.Outcome.next.inj h
  rw [resetBlock_btn]
  rfl

/-- Settles O46: only `performText` writes the buffer, cell by cell in canonical form. -/
theorem stepKeepsTheFrameBufferCanonical : Obligations.StepKeepsTheFrameBufferCanonical := fun _ _ => step_memoryInv

/-- Settles O51: a fault writes both registers, with a code of R205 that is not 0. -/
theorem stepKeepsTheFaultPortConsistent : Obligations.StepKeepsTheFaultPortConsistent := fun _ _ => step_faultInv

/-- Settles O53: the readings say which cells are listed, and with which byte; the order is the offsets'. -/
theorem canonicalFrameBuffersAreDeterminedByTheirCells :
    Obligations.CanonicalFrameBuffersAreDeterminedByTheirCells := by
  intro c m n hm hn hread
  refine Memory.eq_of_rising (Memory.wf_iff.mp hm).1 (Memory.wf_iff.mp hn).1 fun p => ?_
  rw [Memory.mem_iff_of_wf hm, Memory.mem_iff_of_wf hn]
  exact and_congr_right fun hp => by rw [hread p.1 hp]

/-- Settles O15: each register is written as the rule lists it; the configured values fit their registers. -/
theorem resetSetsEveryRegister : Obligations.ResetSetsEveryRegister := by
  intro s
  refine ⟨resetBlock s, rfl, rfl, rfl, rfl, rfl, rfl, rfl, resetBlock_magnitude s, resetBlock_polarity s, fun b => ?_,
    fun k => resetBlock_cell s, rfl, rfl, rfl, rfl, rfl, rfl, ⟨rfl, rfl, rfl⟩, ⟨rfl, rfl⟩⟩
  rw [resetBlock_btn]
  exact ⟨rfl, rfl, rfl, Five.get_ofFn _ b⟩

/-- Settles O16: `State.reset` is what `RESET` makes of itself. -/
theorem resetStateSatisfiesTheInvariants : Obligations.ResetStateSatisfiesTheInvariants := by
  have hreset : ∀ s t, exec .reset s = .next t →
      DemodInv t ∧ SumBounds t ∧ DisplayInv t ∧ HoldInv t ∧ FaultInv t ∧ TextInv t ∧ MemoryInv t ∧
        t.publishHalf = none := by
    intro s t h
    obtain rfl := Host.Outcome.next.inj h
    exact ⟨demodInv_of_zero rfl, sumBounds_of_zero rfl, displayInv_of_cursor_zero rfl, resetBlock_holdInv s,
      faultInv_of_good rfl rfl, textInv_of_none rfl, rfl, rfl⟩
  exact ⟨hreset, hreset _ _ exec_reset_reset⟩

/-- Settles O27: every stage but `Idle` addresses the cell at the cursor. -/
theorem tickStopsWhereNoCellExists : Obligations.TickStopsWhereNoCellExists := by
  intro s mask hgood hstage hcursor
  have hstop : ∀ effect, atCursor s effect = .fault (.noSuchCell s.disp.cursor.toNat) := fun _ =>
    if_neg (Nat.not_lt.mpr hcursor)
  have hdisplay : displayAdvance s = .fault (.noSuchCell s.disp.cursor.toNat) := by
    unfold displayAdvance
    split
    · exact absurd ‹_› hstage
    all_goals exact hstop _
  simp only [exec, execTick, hgood, tickEffect, hdisplay, Bool.false_eq_true, if_false]

end Sys2Proof.Machine
end

section
/-! SUPPORT. Who reads and writes what (R66 to R69): updates of the measurement that the panel's events do not see, updates
of the panel that the host's events and `SAMPLE` do not see, and who writes the flags. -/

namespace Sys2Proof

variable {i : Instr}

theorem Instr.agent_ne_sampling (h : ∀ raw gate, i ≠ .sample raw gate) : i.agent ≠ .sampling := fun hagent =>
  let ⟨raw, gate, hi⟩ := Instr.eq_sample_of_agent hagent
  h raw gate hi

theorem Instr.agent_ne_timer (h : ∀ mask, i ≠ .tick mask) : i.agent ≠ .timer := fun hagent =>
  let ⟨mask, hi⟩ := Instr.eq_tick_of_agent hagent
  h mask hi

end Sys2Proof

namespace Sys2Proof.Machine

variable {s t : State} {i : Instr} {f : State → State}

/-! ## The measurement (R66, R67) -/

theorem outsidePanel_setDemod (d : DemodulationState) : OutsidePanel (·.setDemod d) := by
  constructor <;> intros <;> rfl

theorem outsidePanel_setPublished (p : PublishedMeasurement) : OutsidePanel (·.setPublished p) := by
  constructor <;> intros <;> rfl

/-- The events of the panel are blind to an update outside it that leaves the responses alone. -/
theorem OutsidePanel.exec_panel (hf : OutsidePanel f) (hrespond : ∀ s w, (f s).respond w = f (s.respond w))
    (hsample : i.agent ≠ .sampling) (hreset : i ≠ .reset) (hread : ¬ (i = .rdmag ∨ i = .rdpol)) (s : State) :
    exec i (f s) = Result.map f (exec i s) := by
  cases i with
  | reset => exact absurd rfl hreset
  | sample => exact absurd rfl hsample
  | tick mask => exact hf.exec_tick s mask
  | settext row col len => exact hf.exec_settext s row col len
  | textdata byte => exact hf.exec_textdata s byte
  | rdmag => exact absurd (.inl rfl) hread
  | rdpol => exact absurd (.inr rfl) hread
  | rdfired idx => exact hf.exec_rdfired s hrespond idx

/-- The reads of the published pair are blind to an update that the host port does not see and that leaves the pair and
the responses alone. -/
theorem exec_read_update (hread : i = .rdmag ∨ i = .rdpol)
    (hhost : ∀ {effect : State → State}, effect (f s) = f (effect s) → hostEvent (f s) effect = f (hostEvent s effect))
    (hpublished : (f s).published = s.published) (hrespond : ∀ w, (f s).respond w = f (s.respond w)) :
    exec i (f s) = Result.map f (exec i s) := by
  obtain ⟨word, hword⟩ := exec_read hread
  rw [hword, hword]
  refine congrArg Host.Outcome.next (hhost ?_)
  rw [hpublished, hrespond]

/-- No event but `SAMPLE` and `RESET` writes the measurement (R66, R67). -/
theorem Performed.keepsMeasurement (h : Performed i s t) (hsample : i.agent ≠ .sampling) (hreset : i ≠ .reset) :
    KeepsMeasurement s t := by
  cases h with
  | reset => exact absurd rfl hreset
  | accumulated | published => exact absurd rfl hsample
  | ticked _ u mask _ hd => rw [ticked_frame mask hd]; exact ⟨rfl, rfl, rfl⟩
  | emptyText | textPerformed => rw [performText_frame]; exact ⟨rfl, rfl, rfl⟩
  | ignored | raised | badSequence | textOpened | byteAppended | magnitudeRead | polarityRead | firedRead =>
    exact ⟨rfl, rfl, rfl⟩

/-! ## What `SAMPLE` makes of another published pair (R67) -/

theorem raise_setPublished (k : FaultKind) (s : State) (p : PublishedMeasurement) :
    raise k (s.setPublished p) = (raise k s).setPublished p :=
  (outsidePanel_setPublished p).raise s k

/-- A publish overwrites the magnitude before it reads it, so that only the pair itself can show the earlier one. -/
theorem publish_setPublished (a : Accumulated) (q : Int) (s : State) (p : PublishedMeasurement) :
    (publish a q (s.setPublished p)).setPublished (publish a q s).published = publish a q s := by
  cases hat : s.cfg.publishAtomic
  · rw [publish_of_nonatomic hat, publish_of_nonatomic (s := s.setPublished p) hat]
    rfl
  · rw [publish_of_atomic hat, publish_of_atomic (s := s.setPublished p) hat]
    rfl

theorem sampleEffect_setPublished (raw : Int) (gate : Bool) (s : State) (p : PublishedMeasurement) :
    (sampleEffect raw gate (s.setPublished p)).setPublished (sampleEffect raw gate s).published =
      sampleEffect raw gate s := by
  simp only [sampleEffect, State.setPublished_cfg, State.setPublished_demod, raise_setPublished]
  split
  · rfl
  · split
    · split
      · exact publish_setPublished ..
      · rfl
    · rfl

/-! ## Registers of the panel that other events do not see (R68, R69) -/

/-- The update `f` rewrites registers of the panel, from the panel alone, and touches neither the text assembly nor the
responses: nothing that a `SAMPLE`, a fault or a read of the published pair can see. -/
structure PanelUpdate (f : State → State) : Prop where
  withPanel : ∀ s t : State, f (t.withPanel s) = t.withPanel (f s)
  text : ∀ s, (f s).text = s.text
  setAssembly : ∀ s a, (f s).setAssembly a = f (s.setAssembly a)
  respond : ∀ s w, (f s).respond w = f (s.respond w)

theorem panelUpdate_setFired (b : Five Bool) : PanelUpdate (·.setFired b) := by
  constructor <;> intros <;> rfl

theorem panelUpdate_setMem (m : Memory) : PanelUpdate (·.setMem m) := by
  constructor <;> intros <;> rfl

theorem panelUpdate_withPosition (cursor : BitVec 16) (stage : DisplayStage) :
    PanelUpdate (·.withPosition cursor stage) := by
  constructor <;> intros <;> rfl

namespace PanelUpdate

variable (hf : PanelUpdate f) (s : State)
include hf

/-- Outside the panel nothing changes. -/
theorem eq_withPanel : f s = s.withPanel (f s) := hf.withPanel s s

theorem faulted : (f s).faulted = s.faulted := by rw [hf.eq_withPanel]; rfl

theorem published : (f s).published = s.published := by rw [hf.eq_withPanel]; rfl

/-- What does not see the panel does not see the update. -/
theorem comm {g : State → State} (hg : ∀ s u : State, g (s.withPanel u) = (g s).withPanel u) : g (f s) = f (g s) :=
  calc g (f s)
    _ = g (s.withPanel (f s)) := by rw [← hf.eq_withPanel]
    _ = (g s).withPanel (f s) := hg s (f s)
    _ = f ((g s).withPanel s) := (hf.withPanel s (g s)).symm
    _ = f (g s) := congrArg f (hg s s).symm

theorem raiseBadSequence : raiseBadSequence (f s) = f (raiseBadSequence s) := by
  simp only [Machine.raiseBadSequence, hf.faulted, hf.comm s (raise_withPanel _), hf.setAssembly]
  split <;> rfl

theorem unlessFaulted {effect : State → State} (h : effect (f s) = f (effect s)) :
    unlessFaulted (f s) effect = f (unlessFaulted s effect) := by
  simp only [Machine.unlessFaulted, hf.faulted, h]
  split <;> rfl

theorem hostEvent {effect : State → State} (h : effect (f s) = f (effect s)) :
    hostEvent (f s) effect = f (hostEvent s effect) := by
  refine hf.unlessFaulted s ?_
  simp only [hf.text, hf.raiseBadSequence, h]
  split <;> rfl

theorem exec_sample (raw : Int) (gate : Bool) :
    exec (.sample raw gate) (f s) = Result.map f (exec (.sample raw gate) s) :=
  congrArg Host.Outcome.next (hf.unlessFaulted s (hf.comm s (sampleEffect_withPanel raw gate)))

theorem exec_read (hread : i = .rdmag ∨ i = .rdpol) : exec i (f s) = Result.map f (exec i s) :=
  exec_read_update hread (hf.hostEvent s) (hf.published s) (hf.respond s)

/-- `RDFIRED` is blind to the update, if that leaves the fired flags alone. -/
theorem exec_rdfired (hfired : ∀ s, (f s).fired = s.fired) (hset : ∀ s b, (f s).setFired b = f (s.setFired b))
    (idx : Nat) : exec (.rdfired idx) (f s) = Result.map f (exec (.rdfired idx) s) := by
  refine congrArg Host.Outcome.next (hf.hostEvent s ?_)
  simp only [rdfiredEffect, clearFired, hfired, hf.comm s (raise_withPanel _), hf.respond, hset]
  split <;> rfl

/-- The header of a text is blind to the update, if the copy of a text is. -/
theorem exec_settext (htext : ∀ row col bytes s, performText row col bytes (f s) = f (performText row col bytes s))
    (row col len : Nat) : exec (.settext row col len) (f s) = Result.map f (exec (.settext row col len) s) := by
  refine congrArg Host.Outcome.next (hf.hostEvent s ?_)
  rw [htext, hf.setAssembly, apply_ite f]

/-- A data word is blind to the update, if the copy of a text is. -/
theorem exec_textdata (htext : ∀ row col bytes s, performText row col bytes (f s) = f (performText row col bytes s))
    (byte : Byte) : exec (.textdata byte) (f s) = Result.map f (exec (.textdata byte) s) := by
  refine congrArg Host.Outcome.next (hf.unlessFaulted s ?_)
  simp only [textdataEffect, hf.text, hf.raiseBadSequence, hf.setAssembly, htext]
  split <;> rfl

end PanelUpdate

/-- A text neither reads nor writes the fired flags. -/
theorem performText_setFired (b : Five Bool) (row col : Nat) (bytes : List Byte) (s : State) :
    performText row col bytes (s.setFired b) = (performText row col bytes s).setFired b := by
  unfold performText
  rw [apply_ite (State.setFired · b)]
  rfl

/-- A text neither reads nor writes the cursor and the display stage; it sets `dirty` beside them. -/
theorem performText_withPosition (cursor : BitVec 16) (stage : DisplayStage) (row col : Nat) (bytes : List Byte)
    (s : State) :
    performText row col bytes (s.withPosition cursor stage) =
      (performText row col bytes s).withPosition cursor stage := by
  unfold performText
  rw [apply_ite (State.withPosition cursor stage)]
  rfl

/-- No event but `TICK`, `RDFIRED` and `RESET` reads or writes the fired flags (R68). -/
theorem exec_setFired (b : Five Bool) (htick : i.agent ≠ .timer) (hfired : ∀ idx, i ≠ .rdfired idx)
    (hreset : i ≠ .reset) (s : State) : exec i (s.setFired b) = Result.map (·.setFired b) (exec i s) := by
  have hf := panelUpdate_setFired b
  cases i with
  | reset => exact absurd rfl hreset
  | tick => exact absurd rfl htick
  | rdfired idx => exact absurd rfl (hfired idx)
  | sample raw gate => exact hf.exec_sample s raw gate
  | settext row col len => exact hf.exec_settext s (performText_setFired b) row col len
  | textdata byte => exact hf.exec_textdata s (performText_setFired b) byte
  | rdmag => exact hf.exec_read s (.inl rfl)
  | rdpol => exact hf.exec_read s (.inr rfl)

/-- No event but `TICK` and `RESET` reads or writes the cursor and the display stage (R69). -/
theorem exec_withPosition (cursor : BitVec 16) (stage : DisplayStage) (htick : i.agent ≠ .timer) (hreset : i ≠ .reset)
    (s : State) : exec i (s.withPosition cursor stage) = Result.map (·.withPosition cursor stage) (exec i s) := by
  have hf := panelUpdate_withPosition cursor stage
  cases i with
  | reset => exact absurd rfl hreset
  | tick => exact absurd rfl htick
  | sample raw gate => exact hf.exec_sample s raw gate
  | settext row col len => exact hf.exec_settext s (performText_withPosition cursor stage) row col len
  | textdata byte => exact hf.exec_textdata s (performText_withPosition cursor stage) byte
  | rdmag => exact hf.exec_read s (.inl rfl)
  | rdpol => exact hf.exec_read s (.inr rfl)
  | rdfired idx => exact hf.exec_rdfired s (fun _ => rfl) (fun _ _ => rfl) idx

/-- No event but `TICK`, `RESET` and the words of a text reads or writes the frame buffer (R69). -/
theorem exec_setMem (m : Memory) (htick : i.agent ≠ .timer) (hreset : i ≠ .reset)
    (hsettext : ∀ row col len, i ≠ .settext row col len) (htextdata : ∀ byte, i ≠ .textdata byte) (s : State) :
    exec i (s.setMem m) = Result.map (·.setMem m) (exec i s) := by
  have hf := panelUpdate_setMem m
  cases i with
  | reset => exact absurd rfl hreset
  | tick => exact absurd rfl htick
  | settext row col len => exact absurd rfl (hsettext row col len)
  | textdata byte => exact absurd rfl (htextdata byte)
  | sample raw gate => exact hf.exec_sample s raw gate
  | rdmag => exact hf.exec_read s (.inl rfl)
  | rdpol => exact hf.exec_read s (.inr rfl)
  | rdfired idx => exact hf.exec_rdfired s (fun _ => rfl) (fun _ _ => rfl) idx

/-! ## Who sets and who clears a flag (R68, R69) -/

theorem tick_keeps_fired {mask : BitVec 5} {b : Fin 5} (h : Performed (.tick mask) s t) (hs : s.fired.get b = true) :
    t.fired.get b = true := by
  cases h with
  | ticked _ u _ _ hd =>
    have hu : u.fired = s.fired := by rw [displayAdvance_frame hd]
    rw [debounceAdvance_fired, hu, hs, Bool.true_or]
  | ignored | raised | badSequence => exact hs

theorem rdfired_keeps_clear {idx : Nat} {b : Fin 5} (h : Performed (.rdfired idx) s t) (hs : s.fired.get b = false) :
    t.fired.get b = false := by
  cases h with
  | firedRead _ k => exact (Five.get_set s.fired k b false).trans (by rw [hs, ite_self])
  | ignored | raised | badSequence => exact hs

/-- The display step never sets `dirty`. -/
theorem displayAdvance_keeps_clean (hs : s.disp.dirty = false) (h : displayAdvance s = .next t) :
    t.disp.dirty = false := by
  rcases displayAdvance_cases h with ⟨_, _, rfl⟩ | ⟨_, _, rfl⟩ | ⟨_, _, rfl⟩ | ⟨_, _, rfl⟩ | ⟨_, _, rfl⟩
  · exact hs
  · rfl
  · exact hs
  · exact hs
  · exact (afterEmit_dirty ..).trans hs

/-- Only the words of a text set `dirty` (R69). -/
theorem Performed.dirty_set (h : Performed i s t) (hs : s.disp.dirty = false) (ht : t.disp.dirty = true) :
    (∃ row col len, i = .settext row col len) ∨ ∃ byte, i = .textdata byte := by
  have hclean : t.disp.dirty ≠ false := by rw [ht]; exact nofun
  cases h with
  | emptyText _ row col => exact .inl ⟨row, col, 0, rfl⟩
  | textOpened _ row col len => exact .inl ⟨row, col, len, rfl⟩
  | byteAppended _ byte | textPerformed _ byte => exact .inr ⟨byte, rfl⟩
  | reset => exact absurd rfl hclean
  | ticked _ u mask _ hd => exact absurd (displayAdvance_keeps_clean hs hd) hclean
  | published => rw [publish_frame] at hclean; exact absurd hs hclean
  | ignored | raised | badSequence | accumulated | magnitudeRead | polarityRead | firedRead => exact absurd hs hclean

end Sys2Proof.Machine
end

section
/-! PROOFS. The statements on who reads and writes what. -/

namespace Sys2Proof.Machine

/-- Settles O40: DemodulationState lies outside the panel, and the reads look at the published pair. -/
theorem onlySampleAndResetTouchDemodulationState : Obligations.OnlySampleAndResetTouchDemodulationState := by
  intro i s d hsample hreset
  have hf := outsidePanel_setDemod d
  by_cases hread : i = .rdmag ∨ i = .rdpol
  · exact exec_read_update (f := (·.setDemod d)) hread (hf.hostEvent s) rfl fun _ => rfl
  · exact hf.exec_panel (fun _ _ => rfl) (Instr.agent_ne_sampling hsample) hreset hread s

/-- Settles O41: the pair lies outside the panel, a read only responds, and a publish writes what it reads of the pair. -/
theorem publishedPairIsWrittenBySampleAndReadByTheHost :
    Obligations.PublishedPairIsWrittenBySampleAndReadByTheHost := by
  refine ⟨?_, ?_, ?_⟩
  · intro i s p hsample hreset hmag hpol
    exact (outsidePanel_setPublished p).exec_panel (fun _ _ => rfl) (Instr.agent_ne_sampling hsample) hreset
      (not_or.mpr ⟨hmag, hpol⟩) s
  · intro i s t hread h
    have hkeeps : KeepsMeasurement s t := by
      rcases hread with rfl | rfl <;> exact (exec_performed h).keepsMeasurement nofun nofun
    exact hkeeps.2.1
  · intro s p raw gate
    refine ⟨_, _, rfl, rfl, ?_⟩
    cases hf : s.faulted
    · rw [unlessFaulted_of_good hf, unlessFaulted_of_good (s := s.setPublished p) hf]
      exact sampleEffect_setPublished raw gate s p
    · rw [unlessFaulted_of_faulted hf, unlessFaulted_of_faulted (s := s.setPublished p) hf]
      rfl

/-- Settles O42: only `debounceAdvance` looks at the buttons; it joins events to the flags, and a read only clears one. -/
theorem buttonsBelongToTickAndFlagsToTickAndRdfired : Obligations.ButtonsBelongToTickAndFlagsToTickAndRdfired :=
  ⟨fun _ s b htick hreset => exec_setButtons b (Instr.agent_ne_timer htick) hreset s,
    fun _ s b htick hfired hreset => exec_setFired b (Instr.agent_ne_timer htick) hfired hreset s,
    fun _ _ _ _ h hs => tick_keeps_fired (exec_performed h) hs,
    fun _ _ _ _ h hs => rdfired_keeps_clear (exec_performed h) hs⟩

/-- Settles O43: only the display step looks at the cursor and the stage, and only it and the copy of a text at the
buffer; the copy sets `dirty`, which the display step clears. -/
theorem displayRegistersBelongToTickAndBufferToSettext :
    Obligations.DisplayRegistersBelongToTickAndBufferToSettext := by
  refine ⟨?_, ?_, ?_, fun i s t h hs ht => (exec_performed h).dirty_set hs ht, ?_⟩
  · intro i s cursor stage htick hreset
    exact exec_withPosition cursor stage (Instr.agent_ne_timer htick) hreset s
  · intro i s m htick hreset hsettext htextdata
    exact exec_setMem m (Instr.agent_ne_timer htick) hreset hsettext htextdata s
  · intro s t mask h
    rw [tick_frame h]
    rfl
  · intro i s t h hs ht
    rcases (exec_performed h).dirty hs with hset | hreset | ⟨mask, hi, _⟩
    · exact absurd (ht.symm.trans hset) nofun
    · exact .inr hreset
    · exact .inl ⟨mask, hi⟩

end Sys2Proof.Machine
end

section
/-! SUPPORT. The event word and its spellings: which `op` and which reserved bits decode to what (R82, R91), the bytes of a
word (R96), the rows of the opcode table, and the fields of the words out (R93, R94). -/

namespace Sys2Proof

variable {e : EventWord} {i : Instr}

/-! ## The decoder, row by row (R82, R91) -/

theorem decode_reset (hop : field e 39 32 = 0x01) (hzero : field e 31 0 = 0) : decode e = .ok .reset := by
  simp only [decode, hop, hzero, whenZero_zero]

theorem decode_sample {raw : Int} {gate : Bool} (hop : field e 39 32 = (Instr.sample raw gate).op) :
    decode e = .ok (.sample (BitVec.ofNat 32 (field e 31 0)).toInt gate) := by
  cases gate <;> simp only [decode, hop, Instr.op]

theorem decode_tick (hop : field e 39 32 = 0x20) (hzero : field e 31 5 = 0) :
    decode e = .ok (.tick (BitVec.ofNat 5 (field e 4 0))) := by
  simp only [decode, hop, hzero, whenZero_zero]

theorem decode_settext (hop : field e 39 32 = 0x30) (hzero : field e 31 24 = 0) :
    decode e = .ok (.settext (field e 23 16) (field e 15 8) (field e 7 0)) := by
  simp only [decode, hop, hzero, whenZero_zero]

theorem decode_textdata (hop : field e 39 32 = 0x31) (hzero : field e 31 8 = 0) :
    decode e = .ok (.textdata (BitVec.ofNat 8 (field e 7 0))) := by
  simp only [decode, hop, hzero, whenZero_zero]

theorem decode_rdmag (hop : field e 39 32 = 0x40) (hzero : field e 31 0 = 0) : decode e = .ok .rdmag := by
  simp only [decode, hop, hzero, whenZero_zero]

theorem decode_rdpol (hop : field e 39 32 = 0x41) (hzero : field e 31 0 = 0) : decode e = .ok .rdpol := by
  simp only [decode, hop, hzero, whenZero_zero]

theorem decode_rdfired (hop : field e 39 32 = 0x42) (hzero : field e 31 3 = 0) :
    decode e = .ok (.rdfired (field e 2 0)) := by
  simp only [decode, hop, hzero, whenZero_zero]

theorem whenZero_error {n : Nat} {r : Reject} : whenZero n i = .error r ↔ n ≠ 0 ∧ r = .reservedBits := by
  by_cases hn : n = 0
  · simp [whenZero, hn]
  · simp [whenZero, hn, eq_comm]

/-! ## The `arg` of an event (R83 to R90) -/

/-- The `arg` of an event's word: its operands at their places, every other bit 0. -/
def Instr.arg : Instr → Nat
  | .reset => 0
  | .sample raw _ => (BitVec.ofInt 32 raw).toNat
  | .tick mask => mask.toNat
  | .settext row col len => row * 2 ^ 16 + col * 2 ^ 8 + len
  | .textdata byte => byte.toNat
  | .rdmag => 0
  | .rdpol => 0
  | .rdfired idx => idx

/-- How many low bits of the `arg` are operand bits; R82 requires the others to be 0. -/
def Instr.argBits : Instr → Nat
  | .reset => 0
  | .sample _ _ => 32
  | .tick _ => 5
  | .settext _ _ _ => 24
  | .textdata _ => 8
  | .rdmag => 0
  | .rdpol => 0
  | .rdfired _ => 3

theorem encode_eq_eventWord (i : Instr) : encode i = eventWord i.op i.arg := by
  cases i with
  | sample raw gate => cases gate <;> rfl
  | reset | tick | settext | textdata | rdmag | rdpol | rdfired => rfl

theorem Instr.op_lt (i : Instr) : i.op < 2 ^ 8 := by
  unfold Instr.op
  split <;> decide

theorem Instr.argBits_le (i : Instr) : i.argBits ≤ 32 := by
  unfold Instr.argBits
  split <;> decide

theorem Instr.arg_lt_argBits (h : i.wellFormed = true) : i.arg < 2 ^ i.argBits := by
  cases i with
  | reset | rdmag | rdpol => decide
  | sample | tick | textdata => exact BitVec.isLt _
  | settext row col len =>
    simp only [Instr.wellFormed, isU8, Bool.and_eq_true, decide_eq_true_eq] at h
    simp only [Instr.arg, Instr.argBits]
    omega
  | rdfired idx => exact of_decide_eq_true h

theorem Instr.arg_lt (h : i.wellFormed = true) : i.arg < 2 ^ 32 :=
  (Instr.arg_lt_argBits h).trans_le (Nat.pow_le_pow_right (by decide) i.argBits_le)

/-! ## The fields of an event's word -/

theorem field_op_encode (h : i.wellFormed = true) : field (encode i) 39 32 = i.op := by
  rw [encode_eq_eventWord, field_op_eventWord i.op_lt (Instr.arg_lt h)]

theorem field_arg_encode (h : i.wellFormed = true) {hi lo : Nat} (hlo : lo ≤ hi) (hhi : hi < 32) :
    field (encode i) hi lo = i.arg / 2 ^ lo % 2 ^ (hi + 1 - lo) := by
  rw [encode_eq_eventWord, field_arg_eventWord i.op_lt (Instr.arg_lt h) hlo hhi]

/-- The bits R82 requires to be 0 are 0. -/
theorem field_reserved_encode (h : i.wellFormed = true) : field (encode i) 31 i.argBits = 0 := by
  rcases Nat.lt_or_eq_of_le i.argBits_le with hlt | heq
  · rw [field_arg_encode h (Nat.le_of_lt_succ hlt) (by decide), Nat.div_eq_of_lt (Instr.arg_lt_argBits h),
      Nat.zero_mod]
  · rw [heq]
    exact Nat.mod_one _

/-! ## The round trip (R91, R100) -/

/-- Every well-formed event is read back from its word: the `op` selects its row, the reserved bits are zero, and each
operand fits its field. -/
theorem decode_encode (h : i.wellFormed = true) : decode (encode i) = .ok i := by
  have hop := field_op_encode h
  have hzero := field_reserved_encode h
  have harg : ∀ n, n < 32 → field (encode i) n 0 = i.arg % 2 ^ (n + 1) := fun n hn => by
    rw [field_arg_encode h n.zero_le hn, Nat.pow_zero, Nat.div_one, Nat.sub_zero]
  cases i with
  | reset => exact decode_reset hop hzero
  | rdmag => exact decode_rdmag hop hzero
  | rdpol => exact decode_rdpol hop hzero
  | sample raw gate =>
    have hraw : (BitVec.ofInt 32 raw).toInt = raw := Machine.toInt_ofInt32 h
    rw [decode_sample hop, harg 31 (by decide), Instr.arg, Nat.mod_eq_of_lt (BitVec.isLt _), BitVec.ofNat_toNat,
      BitVec.setWidth_eq, hraw]
  | tick mask =>
    rw [decode_tick hop hzero, harg 4 (by decide), Instr.arg, Nat.mod_eq_of_lt mask.isLt, BitVec.ofNat_toNat,
      BitVec.setWidth_eq]
  | textdata byte =>
    rw [decode_textdata hop hzero, harg 7 (by decide), Instr.arg, Nat.mod_eq_of_lt byte.isLt, BitVec.ofNat_toNat,
      BitVec.setWidth_eq]
  | rdfired idx => rw [decode_rdfired hop hzero, harg 2 (by decide), Instr.arg, Nat.mod_eq_of_lt (of_decide_eq_true h)]
  | settext row col len =>
    rw [decode_settext hop hzero, field_arg_encode h (by decide) (by decide),
      field_arg_encode h (by decide) (by decide), harg 7 (by decide)]
    simp only [Instr.wellFormed, isU8, Bool.and_eq_true, decide_eq_true_eq] at h
    simp only [Instr.arg, Except.ok.injEq, Instr.settext.injEq]
    omega

/-- A decoded event is well formed: each operand is as wide as its field. -/
theorem wellFormed_of_decode (h : decode e = .ok i) : i.wellFormed = true := by
  have hfield : ∀ hi lo, field e hi lo < 2 ^ (hi + 1 - lo) := fun _ _ => Nat.mod_lt _ (by positivity)
  unfold decode at h
  split at h
  case h_2 | h_3 => -- `SAMPLE`
    obtain rfl := Except.ok.inj h
    exact decide_eq_true (Config.i32_range _)
  case h_10 => cases h -- an unassigned `op`
  all_goals obtain ⟨-, rfl⟩ := whenZero_ok h
  case h_5 => -- `SETTEXT`
    simp only [Instr.wellFormed, isU8, hfield 23 16, hfield 15 8, hfield 7 0, decide_true, Bool.and_true]
  case h_9 => exact decide_eq_true (hfield 2 0) -- `RDFIRED`
  all_goals rfl -- the operands of the other rows are bit vectors, or there are none

/-! ## Bytes (R96) -/

/-- A byte of a word, as a number and as a bit field. -/
theorem ofNat_byte_eq_extractLsb' {w : Nat} (v : BitVec w) (n : Nat) :
    BitVec.ofNat 8 (v.toNat / 256 ^ n % 256) = v.extractLsb' (8 * n) 8 := by
  apply BitVec.eq_of_toNat_eq
  rw [BitVec.toNat_ofNat, BitVec.extractLsb'_toNat, Nat.shiftRight_eq_div_pow, Nat.pow_mul]
  exact Nat.mod_mod _ _

/-- The bytes of a number, read after a prefix that spells `acc`. -/
theorem foldl_wordBytes (n v acc : Nat) :
    (wordBytes n v).foldl (fun v b => v * 256 + b.toNat) acc = acc * 256 ^ n + v % 256 ^ n := by
  induction n generalizing acc with
  | zero => simp [wordBytes, Nat.mod_one]
  | succ n ih =>
    rw [wordBytes, List.foldl_cons, ih, BitVec.toNat_ofNat, Nat.mod_mod, Nat.pow_succ, Nat.mod_mul]
    ring

theorem bytesWord_wordBytes {n v : Nat} (h : v < 256 ^ n) : bytesWord (wordBytes n v) = v := by
  rw [bytesWord, foldl_wordBytes, Nat.zero_mul, Nat.zero_add, Nat.mod_eq_of_lt h]

/-- At the head of a byte stream the five bytes of a word are read as that word (R96). -/
theorem decodeBytes_wordBytes (h : decode e = .ok i) (rest : List Byte) :
    decodeBytes (wordBytes 5 e.toNat ++ rest) = .ok (i, rest) := by
  have hword : BitVec.ofNat 40 (bytesWord (wordBytes 5 e.toNat)) = e := by
    rw [bytesWord_wordBytes e.isLt, BitVec.ofNat_toNat, BitVec.setWidth_eq]
  simp only [wordBytes] at hword
  simp only [wordBytes, List.cons_append, List.nil_append, decodeBytes, hword, h]

theorem decodeTableWord_toNat (h : decode e = .ok i) : decodeTableWord 40 e.toNat = some i := by
  have hbytes := decodeBytes_wordBytes h []
  rw [List.append_nil] at hbytes
  rw [decodeTableWord, if_pos ⟨e.isLt, e.isLt⟩, hbytes]

/-! ## Rejected words (R91) -/

theorem decode_eq_unassignedOp : decode e = .error .unassignedOp ↔
    field e 39 32 ∉ [0x01, 0x10, 0x11, 0x20, 0x30, 0x31, 0x40, 0x41, 0x42] := by
  unfold decode
  split
  case h_10 => -- an unassigned `op`
    simp only [List.mem_cons, List.not_mem_nil, true_iff]
    tauto
  all_goals
    rename_i hop
    simp [hop, whenZero_error]

theorem decode_eq_reservedBits : decode e = .error .reservedBits ↔
    (field e 39 32 ∈ [0x01, 0x40, 0x41] ∧ field e 31 0 ≠ 0) ∨
    (field e 39 32 = 0x20 ∧ field e 31 5 ≠ 0) ∨
    (field e 39 32 = 0x30 ∧ field e 31 24 ≠ 0) ∨
    (field e 39 32 = 0x31 ∧ field e 31 8 ≠ 0) ∨
    (field e 39 32 = 0x42 ∧ field e 31 3 ≠ 0) := by
  unfold decode
  split
  case h_10 => -- an unassigned `op`
    simp only [List.mem_cons, List.not_mem_nil, Except.error.injEq, reduceCtorEq, false_iff]
    tauto
  all_goals
    rename_i hop
    simp [hop, whenZero_error]

/-! ## The opcode table (R82) -/

/-- A mask of the bits from `k` up cuts off the lower ones. -/
theorem and_allOnes_shiftLeft_toNat (e : EventWord) (k : Nat) :
    (e &&& BitVec.allOnes 40 <<< k).toNat = e.toNat / 2 ^ k * 2 ^ k := by
  have hshift : e &&& BitVec.allOnes 40 <<< k = e >>> k <<< k := by
    ext j hj
    rw [BitVec.getElem_and, BitVec.getElem_shiftLeft, BitVec.getElem_shiftLeft, BitVec.getElem_allOnes,
      BitVec.getElem_ushiftRight]
    by_cases hjk : j < k
    · simp [hjk]
    · simp [hjk, Nat.add_sub_of_le (Nat.le_of_not_lt hjk), BitVec.getLsbD_eq_getElem hj]
  have hlt : e.toNat / 2 ^ k * 2 ^ k < 2 ^ 40 := (Nat.div_mul_le_self e.toNat (2 ^ k)).trans_lt e.isLt
  rw [hshift, BitVec.toNat_shiftLeft, BitVec.toNat_ushiftRight, Nat.shiftLeft_eq, Nat.shiftRight_eq_div_pow,
    Nat.mod_eq_of_lt hlt]

/-- With a mask of the bits from `k` up, a word is the row's exactly when it agrees with the row's word from `k` up. -/
theorem OpcodeRow.spells_iff_div {row : OpcodeRow} {k : Nat} (hmask : row.mask = BitVec.allOnes 40 <<< k)
    (hbits : row.bits.toNat % 2 ^ k = 0) : row.spells e = true ↔ e.toNat / 2 ^ k = row.bits.toNat / 2 ^ k := by
  rw [OpcodeRow.spells, beq_iff_eq, ← BitVec.toNat_inj, hmask, and_allOnes_shiftLeft_toNat,
    ← Nat.div_mul_cancel (Nat.dvd_of_mod_eq_zero hbits), Nat.mul_div_cancel _ (by positivity),
    Nat.mul_left_inj (by positivity)]

/-- With a mask of the `op` and the bits of the `arg` from `lo` up, a word is the row's exactly when its `op` is the row's
and those bits are 0. -/
theorem OpcodeRow.spells_iff_field {row : OpcodeRow} {op lo : Nat} (hop : op < 2 ^ 8) (hlo : lo ≤ 32)
    (hmask : row.mask = BitVec.allOnes 40 <<< lo) (hbits : row.bits = eventWord op 0) :
    row.spells e = true ↔ field e 39 32 = op ∧ field e 31 lo = 0 := by
  obtain ⟨k, hk⟩ : ∃ k, 32 = lo + k := ⟨32 - lo, by omega⟩
  have hword : row.bits.toNat = 2 ^ lo * (op * 2 ^ k) := by
    rw [hbits, eventWord_toNat hop (by decide), hk]
    ring
  have hopField : field e 39 32 = e.toNat / 2 ^ lo / 2 ^ k := by
    have hlt := e.isLt
    rw [Nat.div_div_eq_div_mul, ← Nat.pow_add, ← hk, field]
    omega
  have hzeroField : field e 31 lo = e.toNat / 2 ^ lo % 2 ^ k := by
    rw [field, show 31 + 1 - lo = k by omega]
  rw [OpcodeRow.spells_iff_div hmask (by rw [hword, Nat.mul_mod_right]), hword,
    Nat.mul_div_cancel_left _ (by positivity), hopField, hzeroField, Nat.div_mod_unique (by positivity), Nat.zero_add,
    Nat.mul_comm, eq_comm]
  exact (and_iff_left (by positivity)).symm

/-- A decoded word has its event's `op`, and zeros where R82 requires them. -/
theorem field_of_decode (h : decode e = .ok i) : field e 39 32 = i.op ∧ field e 31 i.argBits = 0 := by
  have hw := wellFormed_of_decode h
  rw [← encode_of_decode h]
  exact ⟨field_op_encode hw, field_reserved_encode hw⟩

/-- The row of an event other than `SAMPLE`: its bits are the event's `op`, its mask holds every bit but the operands'. -/
theorem OpcodeRow.of_mnemonic (hs : i.mnemonic ≠ "SAMPLE") : ∀ row ∈ opcodeTable, row.mnemonic = i.mnemonic →
    row.mask = BitVec.allOnes 40 <<< i.argBits ∧ row.bits = eventWord i.op 0 := by
  cases i with
  | sample => exact absurd rfl hs
  | reset | tick | settext | textdata | rdmag | rdpol | rdfired =>
    simp only [Instr.mnemonic, Instr.argBits, Instr.op]
    decide

/-- The row of `SAMPLE`: its mask leaves out the lowest bit of the `op` too, which is the gate. -/
theorem OpcodeRow.of_sample : ∀ row ∈ opcodeTable, row.mnemonic = "SAMPLE" →
    row.mask = BitVec.allOnes 40 <<< 33 ∧ row.bits = eventWord 0x10 0 := by decide

/-- Every row is some event's. -/
theorem OpcodeRow.exists_event : ∀ row ∈ opcodeTable,
    ∃ i ∈ [.reset, .sample 0 false, .tick 0, .settext 0 0 0, .textdata 0, .rdmag, .rdpol, .rdfired 0],
      row.mnemonic = Instr.mnemonic i := by decide

/-- A word with an event's `op`, and with zeros where R82 requires them for it, decodes to an event of its mnemonic. -/
theorem decode_of_field {i : Instr} (hop : field e 39 32 = i.op) (hzero : field e 31 i.argBits = 0) :
    ∃ j, decode e = .ok j ∧ j.mnemonic = i.mnemonic := by
  cases i with
  | reset => exact ⟨_, decode_reset hop hzero, rfl⟩
  | sample => exact ⟨_, decode_sample hop, rfl⟩
  | tick => exact ⟨_, decode_tick hop hzero, rfl⟩
  | settext => exact ⟨_, decode_settext hop hzero, rfl⟩
  | textdata => exact ⟨_, decode_textdata hop hzero, rfl⟩
  | rdmag => exact ⟨_, decode_rdmag hop hzero, rfl⟩
  | rdpol => exact ⟨_, decode_rdpol hop hzero, rfl⟩
  | rdfired => exact ⟨_, decode_rdfired hop hzero, rfl⟩

/-- The words of the row of `SAMPLE` are those with one of its two `op`s. -/
theorem OpcodeRow.spells_sample_iff {row : OpcodeRow} (hrow : row ∈ opcodeTable) (hs : row.mnemonic = "SAMPLE") :
    row.spells e = true ↔ ∃ gate, field e 39 32 = (Instr.sample 0 gate).op := by
  obtain ⟨hmask, hbits⟩ := OpcodeRow.of_sample row hrow hs
  have hlt := e.isLt
  rw [OpcodeRow.spells_iff_div hmask (by rw [hbits]; decide), hbits, eventWord_toNat (by decide) (by decide),
    Bool.exists_bool, field, Instr.op, Instr.op]
  omega

/-- The words of any other row are those with the `op`, and the zeros, of an event of its mnemonic. -/
theorem OpcodeRow.spells_iff_of_mnemonic {row : OpcodeRow} (hrow : row ∈ opcodeTable)
    (hm : row.mnemonic = i.mnemonic) (hs : row.mnemonic ≠ "SAMPLE") :
    row.spells e = true ↔ field e 39 32 = i.op ∧ field e 31 i.argBits = 0 := by
  obtain ⟨hmask, hbits⟩ := OpcodeRow.of_mnemonic (hm ▸ hs) row hrow hm
  exact OpcodeRow.spells_iff_field i.op_lt i.argBits_le hmask hbits

/-- A row's words are those that decode to an event of its mnemonic. -/
theorem OpcodeRow.spells_iff_decode {row : OpcodeRow} (hrow : row ∈ opcodeTable) :
    row.spells e = true ↔ ∃ i, decode e = .ok i ∧ i.mnemonic = row.mnemonic := by
  by_cases hs : row.mnemonic = "SAMPLE"
  · rw [OpcodeRow.spells_sample_iff hrow hs, hs]
    constructor
    · rintro ⟨gate, hop⟩
      exact ⟨_, decode_sample hop, rfl⟩
    · rintro ⟨i, hd, hm⟩
      cases i with
      | sample raw gate => exact ⟨gate, by cases gate <;> exact (field_of_decode hd).1⟩
      | _ => simp [Instr.mnemonic] at hm
  · constructor
    · intro h
      obtain ⟨i, -, hi⟩ := OpcodeRow.exists_event row hrow
      obtain ⟨hop, hzero⟩ := (OpcodeRow.spells_iff_of_mnemonic hrow hi hs).mp h
      rw [hi]
      exact decode_of_field hop hzero
    · rintro ⟨i, hd, hm⟩
      exact (OpcodeRow.spells_iff_of_mnemonic hrow hm.symm hs).mpr (field_of_decode hd)

end Sys2Proof

namespace Sys2Proof.Machine

/-! ## Words out (R93) -/

/-- The number a display word is. -/
theorem displayWord_toNat {kind row col byte : Nat} (hkind : kind < 256) (hrow : row < 256) (hcol : col < 256)
    (hbyte : byte < 256) :
    (displayWord kind row col byte).toNat = kind * 2 ^ 24 + row * 2 ^ 16 + col * 2 ^ 8 + byte := by
  have happend : ∀ {v w : Nat} (x : BitVec v) (y : BitVec w), (x ++ y).toNat = x.toNat * 2 ^ w + y.toNat := fun x y => by
    rw [BitVec.toNat_append, ← Nat.shiftLeft_add_eq_or_of_lt y.isLt, Nat.shiftLeft_eq]
  simp only [displayWord, happend, BitVec.toNat_ofNat]
  omega

end Sys2Proof.Machine
end

section
/-! SUPPORT. What an illegal word leaves (R201), the frame buffer after a text (R152), and the invariants of the text
assembly and of the half-done publish. -/

namespace Sys2Proof.Machine

variable {s t : State} {i : Instr} {e : EventWord}

/-- The state that a fault leaves (R200). -/
theorem setFault_faultedWith (s : State) (code : BitVec 8) : FaultedWith code s (s.setFault true code) :=
  ⟨rfl, rfl, ⟨rfl, rfl, rfl⟩, ⟨⟨rfl, rfl⟩, rfl, fun _ => rfl, rfl⟩, ⟨rfl, rfl, rfl⟩, rfl, rfl⟩

/-- A word that spells no event raises `IllegalWord`, whatever port it stands at and whether or not a publish is half
done (R201; log 9). -/
theorem step_of_illegal {port : InPort} {rest : List PortInputs} (hs : s.good)
    (hf : fetch s.inputs = .word port e rest) (hd : ∀ i, decode e ≠ .ok i) :
    step s = .next ((s.setInputs rest).setFault true 0x01) := by
  cases hr : decode e with
  | ok i => exact absurd hr (hd i)
  | error r =>
    rw [step_of_fetch hf (.inr (by simp [fallsBetween, hr]))]
    simp only [perform, hr]
    exact congrArg _ (raise_of_good (s := s.setInputs rest) hs .illegalWord)

/-! ## The copy of a text (R152 to R155) -/

/-- Byte `k` of a text stands at offset `off + k`, where that is a cell. -/
theorem Memory.read_copyText_inside {c : Config} {m : Memory} {bytes : List Byte} {off k : Nat}
    (hm : Memory.wf c m = true) (hk : k < bytes.length) (hcell : off + k < c.cells) :
    Memory.read c (Memory.copyText c m off bytes) (off + k) = bytes[k] := by
  rw [Memory.read_copyText bytes off hm, dif_pos ⟨by omega, by omega, hcell⟩]
  simp only [Nat.add_sub_cancel_left]

/-- Before a text, after it, and past the last cell, every byte is as it was. -/
theorem Memory.read_copyText_outside {c : Config} {m : Memory} {bytes : List Byte} {off a : Nat}
    (hm : Memory.wf c m = true) (ha : a < off ∨ off + bytes.length ≤ a ∨ c.cells ≤ a) :
    Memory.read c (Memory.copyText c m off bytes) a = Memory.read c m a := by
  rw [Memory.read_copyText bytes off hm a, dif_neg (by omega)]

theorem performText_of_outside {row col : Nat} (h : ¬ (row < s.cfg.height ∧ col < s.cfg.width)) (bytes : List Byte) :
    performText row col bytes s = s := if_pos (by omega)

theorem performText_of_inside {row col : Nat} (h : row < s.cfg.height ∧ col < s.cfg.width) (bytes : List Byte) :
    performText row col bytes s =
      markDirty (s.setMem (Memory.copyText s.cfg s.mem (linearOffset s.cfg row col) bytes)) := if_neg (by omega)

@[simp] theorem performText_text (row col : Nat) (bytes : List Byte) (s : State) :
    (performText row col bytes s).text = s.text := by
  rw [performText_frame]

/-! ## The text assembly (R92, R101) -/

theorem Performed.textInv (h : Performed i s t) (hi : i.wellFormed = true) (hs : TextInv s) : TextInv t := by
  cases h with
  | reset | badSequence => exact textInv_of_none rfl
  | published => rw [publish_frame]; exact hs
  | ticked _ _ mask _ hd => rw [ticked_frame mask hd]; exact hs
  | emptyText => rw [performText_frame]; exact hs
  | textPerformed => exact textInv_of_none (performText_text ..)
  | textOpened _ row col len _ _ hlen =>
    simp only [Instr.wellFormed, isU8, Bool.and_eq_true, decide_eq_true_eq] at hi
    refine ⟨fun hneed => absurd hneed hlen, ?_⟩
    show 0 + len ≤ 255
    omega
  | byteAppended _ byte n _ hn =>
    obtain ⟨_, hlen⟩ := hs
    refine ⟨nofun, ?_⟩
    simp only [State.setAssembly_text, List.length_append, List.length_singleton]
    omega
  | ignored | raised | accumulated | magnitudeRead | polarityRead | firedRead => exact hs

theorem step_textInv (hs : TextInv s) (h : step s = .next t) : TextInv t :=
  step_keeps (fun _ _ hu => hu) (fun _ _ _ hu => hu) (fun _ _ _ => textInv_of_none rfl) (fun _ _ _ _ hu => hu)
    (fun _ _ _ ⟨_, hd⟩ _ hu hx => (exec_performed hx).textInv (wellFormed_of_decode hd) hu) hs h

/-! ## The half-done publish (R241) -/

theorem publishInv_of_none (h : s.publishHalf = none) : PublishInv s := fun _ hp => nomatch h.symm.trans hp

theorem publish_publishInv (a : Accumulated) (q : Int) (s : State) : PublishInv (publish a q s) := by
  cases hat : s.cfg.publishAtomic
  · rw [publish_of_nonatomic hat]
    intro p hp
    obtain rfl := Option.some.inj hp
    exact ⟨hat, polarityOf_cases a.ps a.ns⟩
  · rw [publish_of_atomic hat]
    exact publishInv_of_none rfl

theorem Performed.publishInv (h : Performed i s t) (hs : PublishInv s) : PublishInv t := by
  cases h with
  | reset => exact publishInv_of_none rfl
  | published => exact publish_publishInv _ _ s
  | ticked _ _ mask _ hd => rw [ticked_frame mask hd]; exact hs
  | emptyText | textPerformed => rw [performText_frame]; exact hs
  | ignored | raised | badSequence | accumulated | textOpened | byteAppended | magnitudeRead | polarityRead
  | firedRead => exact hs

theorem step_publishInv (hs : PublishInv s) (h : step s = .next t) : PublishInv t :=
  step_keeps (P := PublishInv) (fun _ _ hu => hu) (fun _ _ _ hu => hu) (fun _ _ hu => hu)
    (fun _ _ _ _ _ => publishInv_of_none rfl) (fun _ _ _ _ _ hu hx => (exec_performed hx).publishInv hu) hs h

end Sys2Proof.Machine
end

section
/-! PROOFS. The statements on the encoding, the ports, the words of a text, and the text and publish invariants. -/

namespace Sys2Proof.Machine

/-- Settles O1: the decoder reads the event from its word, and the five bytes spell that word. -/
theorem encodedEventDecodesToItself : Obligations.EncodedEventDecodesToItself := by
  intro i hw
  have hd := decode_encode hw
  exact ⟨hd, decodeBytes_wordBytes hd, decodeTableWord_toNat hd⟩

/-- Settles O2: every field of a word fits its operand, and the operands with the zeros make up the word. -/
theorem decodedWordIsItsEventsEncoding : Obligations.DecodedWordIsItsEventsEncoding := fun _ _ hd =>
  ⟨wellFormed_of_decode hd, encode_of_decode hd⟩

/-- Settles O3: a row's mask and bits say which `op` the word has and which of its bits are 0, and so does decoding. -/
theorem opcodeTableRowsSpellTheirEvents : Obligations.OpcodeTableRowsSpellTheirEvents := fun _ _ =>
  OpcodeRow.spells_iff_decode

/-- Settles O4: each row of the decoder rejects by its reserved bits only, and an illegal word is a host word to a
half-done publish, so that its step raises at once. -/
theorem illegalWordsAreRejectedAndRaise : Obligations.IllegalWordsAreRejectedAndRaise :=
  ⟨fun _ => decode_eq_unassignedOp, fun _ => decode_eq_reservedBits, fun _ _ _ _ hs hf hd =>
    ⟨_, step_of_illegal hs hf hd, setFault_faultedWith _ _⟩⟩

/-- Settles O29: a data word before the last one writes the text assembly only; the last one is the whole text, on the
state with the assembly closed. -/
theorem textdataAppendsAndTheLastOnePerformsTheText : Obligations.TextdataAppendsAndTheLastOnePerformsTheText := by
  intro s byte hf hn hmem
  refine ⟨_, rfl, ?_⟩
  rw [unlessFaulted_of_good hf, textdataEffect]
  split
  · exact absurd ‹_› hn
  · rename_i hneed
    rw [if_neg (not_not.mpr hneed)]
    by_cases hin : s.text.row < s.cfg.height ∧ s.text.col < s.cfg.width
    · rw [performText_of_inside (s := s.setAssembly .none) hin, if_pos hin]
      exact ⟨rfl, rfl, ⟨rfl, rfl, rfl⟩, ⟨rfl, rfl⟩, ⟨rfl, rfl⟩, ⟨rfl, rfl, rfl⟩, ⟨rfl, rfl⟩, rfl, rfl,
        fun _ => Memory.read_copyText_inside hmem, fun _ => Memory.read_copyText_outside hmem⟩
    · rw [performText_of_outside (s := s.setAssembly .none) hin, if_neg hin]
      exact ⟨rfl, rfl, ⟨rfl, rfl, rfl⟩, ⟨rfl, rfl⟩, ⟨rfl, rfl⟩, ⟨rfl, rfl, rfl⟩, ⟨rfl, rfl⟩, rfl, rfl, fun _ => rfl⟩
  · rename_i n hneed
    rw [if_pos (by omega), hneed]
    exact ⟨rfl, rfl, ⟨rfl, rfl, rfl⟩, ⟨rfl, rfl⟩, ⟨rfl, rfl⟩, ⟨rfl, rfl, rfl⟩, ⟨rfl, rfl⟩, rfl, rfl, fun _ => rfl⟩

/-- Settles O52: a header owes at most the 255 words its field can say, a data word moves one from owed to held, and only
a publish without `PUBLISH_ATOMIC` is left half done. -/
theorem stepKeepsTextAndPublishInvariants : Obligations.StepKeepsTextAndPublishInvariants :=
  ⟨fun _ _ => step_textInv, fun _ _ => step_publishInv⟩

/-- Settles O5 by running the decoder on each word. -/
theorem eventWordsOfTheSpecDecode : Obligations.EventWordsOfTheSpecDecode := by
  unfold Obligations.EventWordsOfTheSpecDecode
  decide

/-- Settles O6: byte `n` from the right is the word over `256 ^ n`, modulo 256, which is its bit field. -/
theorem wordsAreSerialisedMostSignificantByteFirst : Obligations.WordsAreSerialisedMostSignificantByteFirst := by
  constructor <;> intro v <;> simp only [wordBytes, ofNat_byte_eq_extractLsb', Nat.reduceMul]

/-- Settles O7: a display word is the sum of its shifted parts, and a publish word is its two parts side by side. -/
theorem outputWordsCarryTheirFields : Obligations.OutputWordsCarryTheirFields := by
  refine ⟨?_, fun p q => ⟨BitVec.extractLsb'_append_eq_left, BitVec.extractLsb'_append_eq_right⟩⟩
  intro kind row col byte hkind hrow hcol hbyte
  simp only [BitVec.extractLsb'_toNat, Nat.shiftRight_eq_div_pow, displayWord_toNat hkind hrow hcol hbyte]
  omega

/-- Settles O10: `take` asks the ports in this order, and the pins' operands are in range, so that their word is read back. -/
theorem portsAreServedInPriorityOrder : Obligations.PortsAreServedInPriorityOrder := by
  intro p later
  refine ⟨fun hr => ?_, fun pins hr hs => ?_, fun mask hr hs ht => ?_, fun e hr hs ht hh => ?_⟩
  · simp only [fetch, PortInputs.take, hr, if_true]
    rfl
  · refine ⟨_, ?_, decode_encode (decide_eq_true (Config.i32_range pins.raw))⟩
    simp only [fetch, PortInputs.take, hr, hs, Bool.false_eq_true, if_false]
  · refine ⟨_, ?_, decode_encode rfl⟩
    simp only [fetch, PortInputs.take, hr, hs, ht, Bool.false_eq_true, if_false]
  · simp only [fetch, PortInputs.take, hr, hs, ht, hh, Bool.false_eq_true, if_false, if_true]

/-- Settles O28: with `len = 0` the header performs the empty text, which copies no byte. -/
theorem settextHeaderOpensATextOrIsTheWholeEvent : Obligations.SettextHeaderOpensATextOrIsTheWholeEvent := by
  intro s row col len ⟨hf, hn⟩
  refine ⟨_, rfl, ?_⟩
  rw [hostEvent_of_ready hf hn]
  by_cases hlen : len = 0
  · rw [if_pos hlen, if_neg (not_not.mpr hlen)]
    split
    · rename_i hin
      rw [performText_of_inside hin]
      exact ⟨rfl, rfl, rfl, rfl, ⟨rfl, rfl, rfl⟩, ⟨rfl, rfl⟩, fun _ => rfl, ⟨rfl, rfl⟩, ⟨rfl, rfl, rfl⟩, rfl, rfl⟩
    · exact performText_of_outside ‹_› _
  · rw [if_neg hlen, if_pos hlen]
    rfl

end Sys2Proof.Machine
end

section
/-! SUPPORT. The Synchronous Demodulator: what a `SAMPLE` makes of its operands and registers (R111 to R114), one equation
per outcome of it (R116), the bound of R127 on the sums, truncating division (R117), and the second step of a publish
(R241). -/

namespace Sys2Proof.Machine

variable {s t : State} {i : Instr} {c : Config} {a : Accumulated} {raw : Int} {gate : Bool}

/-! ## Steps 1 to 4 (R111 to R114) -/

/-- Steps 1 to 4 in the terms of R116. -/
theorem accumulate_eq {d : DemodulationState} {value acc ps ns : Int} {sc gc : Nat}
    (hvalue : value = raw - c.baselineOffset)
    (hacc : acc = d.signedAccumulator.toInt + (if gate then value else -value))
    (hps : ps = d.positiveSum.toInt + (if gate then value else 0))
    (hns : ns = d.negativeSum.toInt + (if gate then 0 else value))
    (hsc : sc = d.sampleCount.toNat + 1)
    (hgc : gc = d.gateCount.toNat + (if gate = d.prevGate then 0 else 1)) :
    accumulate c d raw gate = ⟨acc, ps, ns, sc, gc, gate⟩ := by
  subst hvalue hacc hps hns hsc hgc
  cases gate <;> cases hpg : d.prevGate <;>
    simp [accumulate, centred, isTransition, nextPrevGate, hpg, Int.sub_eq_add_neg]

/-- `prev_gate` ends as the gate level (R114). -/
theorem accumulate_pg (c : Config) (d : DemodulationState) (raw : Int) (gate : Bool) :
    (accumulate c d raw gate).pg = gate := by
  rw [accumulate_eq rfl rfl rfl rfl rfl rfl]

/-- The accumulator of a sample, with `-value` written out (R112). -/
theorem accumulate_acc_eq (c : Config) (d : DemodulationState) (raw : Int) (gate : Bool) :
    (accumulate c d raw gate).acc =
      d.signedAccumulator.toInt + (if gate then raw - c.baselineOffset else c.baselineOffset - raw) := by
  rw [accumulate_eq rfl rfl rfl rfl rfl rfl, Int.neg_sub]

/-- A count of transitions short of the threshold fits its register: it needs no check (R115). -/
theorem Accumulated.registers_gateCount_of_lt (h : a.gc < c.cycleThreshold) : a.registers.gateCount.toNat = a.gc := by
  have hlegal := c.cycleThreshold_legal
  exact toNat_ofNat32 (decide_eq_true (by omega))

/-- The checks of R116 in their order, as ranges of integers. -/
theorem Accumulated.overflow_eq (a : Accumulated) : a.overflow =
    if ¬ (-2 ^ 63 ≤ a.acc ∧ a.acc ≤ 2 ^ 63 - 1) then some .signedAccumulator
    else if ¬ (-2 ^ 63 ≤ a.ps ∧ a.ps ≤ 2 ^ 63 - 1) then some .positiveSum
    else if ¬ (-2 ^ 63 ≤ a.ns ∧ a.ns ≤ 2 ^ 63 - 1) then some .negativeSum
    else if ¬ (a.sc ≤ 2 ^ 32 - 1) then some .sampleCount
    else none := by
  simp only [Accumulated.overflow, fitsI64, fitsU32, Bool.not_eq_true', decide_eq_false_iff_not]

/-- Where samples were counted, a publish is due exactly at the threshold (R115, R119). -/
theorem publishDue_eq_true (hsc : 0 < a.sc) : publishDue c a = true ↔ c.cycleThreshold ≤ a.gc := by
  rw [← Bool.not_eq_false, publishDue_eq_false hsc, Nat.not_lt]

/-- A polarity register holds the polarity exactly. -/
theorem polarityOf_toInt (ps ns : Int) : (BitVec.ofInt 8 (polarityOf ps ns)).toInt = if ps > ns then 1 else -1 := by
  unfold polarityOf
  split <;> decide

/-- The register's `+1` is the polarity of a greater positive sum (R118). -/
theorem ofInt_polarityOf_eq_one {ps ns : Int} : BitVec.ofInt 8 (polarityOf ps ns) = 1 ↔ ns < ps := by
  unfold polarityOf
  split
  · exact iff_of_true (by decide) ‹_›
  · exact iff_of_false (by decide) ‹_›

/-! ## The outcomes of a `SAMPLE` (R116) -/

theorem exec_sample_of_good (hf : s.good) : exec (.sample raw gate) s = .next (sampleEffect raw gate s) :=
  congrArg _ (unlessFaulted_of_good hf _)

section Outcomes

variable (hf : s.good) (ha : accumulate s.cfg s.demod raw gate = a)
include hf ha

/-- The first check that fails raises its fault. -/
theorem exec_sample_of_overflow {reg : ArithReg} (ho : a.overflow = some reg) :
    exec (.sample raw gate) s = .next (s.setFault true reg.code) := by
  rw [exec_sample_of_good hf]
  simp only [sampleEffect, ha, ho, raise_of_good hf, FaultKind.code]

/-- Below the threshold the registers are written. -/
theorem exec_sample_of_below (ho : a.overflow = none) (hgc : a.gc < s.cfg.cycleThreshold) :
    exec (.sample raw gate) s = .next (s.setDemod a.registers) := by
  have hdue := (publishDue_eq_false (ha ▸ accumulate_sc_pos ..)).mpr hgc
  rw [exec_sample_of_good hf]
  simp only [sampleEffect, ha, ho, hdue, Bool.false_eq_true, if_false]

/-- At the threshold a quotient that is no `i32` raises the magnitude's fault. -/
theorem exec_sample_of_unfit (ho : a.overflow = none) (hgc : s.cfg.cycleThreshold ≤ a.gc)
    (hq : fitsI32 (tdiv a.acc a.sc) = false) : exec (.sample raw gate) s = .next (s.setFault true 0x14) := by
  have hdue := (publishDue_eq_true (ha ▸ accumulate_sc_pos ..)).mpr hgc
  rw [exec_sample_of_good hf]
  simp only [sampleEffect, ha, ho, hdue, hq, if_true, Bool.false_eq_true, if_false,
    raise_of_good hf, FaultKind.code, ArithReg.code]

/-- At the threshold a quotient that fits is published. -/
theorem exec_sample_of_publish (ho : a.overflow = none) (hgc : s.cfg.cycleThreshold ≤ a.gc)
    (hq : fitsI32 (tdiv a.acc a.sc) = true) : exec (.sample raw gate) s = .next (publish a (tdiv a.acc a.sc) s) := by
  have hdue := (publishDue_eq_true (ha ▸ accumulate_sc_pos ..)).mpr hgc
  rw [exec_sample_of_good hf]
  simp only [sampleEffect, ha, ho, hdue, hq, if_true]

/-- Where no check of steps 1 to 4 fails, the magnitude's is the only fault left (R124). -/
theorem sample_faultCode (ho : a.overflow = none) (h : exec (.sample raw gate) s = .next t) (ht : t.faulted = true) :
    t.faultCode = 0x14 := by
  rcases Nat.lt_or_ge a.gc s.cfg.cycleThreshold with hgc | hgc
  · obtain rfl := Host.Outcome.next.inj ((exec_sample_of_below hf ha ho hgc).symm.trans h)
    exact absurd (hf.symm.trans ht) nofun
  · cases hq : fitsI32 (tdiv a.acc a.sc)
    · obtain rfl := Host.Outcome.next.inj ((exec_sample_of_unfit hf ha ho hgc hq).symm.trans h)
      rfl
    · obtain rfl := Host.Outcome.next.inj ((exec_sample_of_publish hf ha ho hgc hq).symm.trans h)
      rw [publish_frame] at ht
      exact absurd (hf.symm.trans ht) nofun

end Outcomes

/-! ## The bound on the sums (R127) -/

/-- R127 for the values of R116: no sum exceeds the count of samples times the largest `|value|`. -/
def Accumulated.Bounded (a : Accumulated) : Prop :=
  |a.acc| ≤ a.sc * (2 ^ 32 - 1) ∧ |a.ps| ≤ a.sc * (2 ^ 32 - 1) ∧ |a.ns| ≤ a.sc * (2 ^ 32 - 1)

/-- Two `i32` values differ by no more than `2^32 - 1` (R111). -/
theorem abs_centred_le (c : Config) (h : isI32 raw = true) : |centred c raw| ≤ 2 ^ 32 - 1 := by
  have hbase := c.baselineOffset_legal
  simp only [isI32, decide_eq_true_eq] at h
  rw [centred, abs_le]
  omega

/-- A sample adds at most `2^32 - 1` to a sum and one to the count. -/
theorem accumulate_bounded (hs : SumBounds s) (hraw : isI32 raw = true) (gate : Bool) :
    (accumulate s.cfg s.demod raw gate).Bounded := by
  have hvalue := abs_centred_le s.cfg hraw
  simp only [SumBounds, abs_le] at hs hvalue
  cases gate
  all_goals
    simp only [Accumulated.Bounded, accumulate, abs_le, if_true, Bool.false_eq_true, if_false]
    omega

/-- Registers that hold bounded values exactly are bounded. -/
theorem sumBounds_of_registers (ho : a.overflow = none) (ha : a.Bounded) (ht : t.demod = a.registers) : SumBounds t := by
  obtain ⟨hacc, hps, hns, hsc⟩ := Accumulated.registers_exact ho
  rw [SumBounds, ht, hacc, hps, hns, hsc]
  exact ha

/-- Within `2^31` samples bounded values fit their registers. -/
theorem Accumulated.Bounded.overflow_eq_none (ha : a.Bounded) (hsc : a.sc ≤ 2 ^ 31) : a.overflow = none := by
  simp only [Accumulated.Bounded, abs_le] at ha
  simp only [Accumulated.overflow_eq_none, fitsI64, fitsU32, decide_eq_true_eq]
  omega

/-- A publish empties the window, or keeps its values for the second step (R120, R241). -/
theorem publish_sumBounds (ho : a.overflow = none) (ha : a.Bounded) (q : Int) (s : State) : SumBounds (publish a q s) := by
  cases hat : s.cfg.publishAtomic
  · rw [publish_of_nonatomic hat]
    exact sumBounds_of_registers ho ha rfl
  · rw [publish_of_atomic hat]
    exact sumBounds_of_zero rfl

theorem Performed.sumBounds (h : Performed i s t) (hi : i.wellFormed = true) (hs : SumBounds s) : SumBounds t := by
  cases h with
  | reset => exact sumBounds_of_zero rfl
  | accumulated _ raw gate _ hfit => exact sumBounds_of_registers hfit (accumulate_bounded hs hi gate) rfl
  | published _ raw gate q _ hfit => exact publish_sumBounds hfit (accumulate_bounded hs hi gate) q s
  | ticked _ _ mask _ hd => rw [ticked_frame mask hd]; exact hs
  | emptyText | textPerformed => rw [performText_frame]; exact hs
  | ignored | raised | badSequence | textOpened | byteAppended | magnitudeRead | polarityRead | firedRead => exact hs

theorem step_sumBounds (hs : SumBounds s) (h : step s = .next t) : SumBounds t :=
  step_keeps (fun _ _ hu => hu) (fun _ _ _ hu => hu) (fun _ _ hu => hu) (fun _ _ _ _ _ => sumBounds_of_zero rfl)
    (fun _ _ _ ⟨_, hd⟩ _ hu hx => (exec_performed hx).sumBounds (wellFormed_of_decode hd) hu) hs h

/-! ## Truncating division (R117) -/

/-- The remainder of `tdiv` is short of the divisor and has the dividend's sign, and nothing else has. -/
theorem tdiv_eq_iff {x b q : Int} (hb : 0 < b) :
    tdiv x b = q ↔ ∃ r, x = q * b + r ∧ |r| < b ∧ (r = 0 ∨ (0 < r ∧ 0 < x) ∨ (r < 0 ∧ x < 0)) := by
  constructor
  · rintro rfl
    refine ⟨x.tmod b, (Int.tdiv_mul_add_tmod x b).symm, abs_lt.mpr ⟨Int.lt_tmod_of_pos x hb, Int.tmod_lt_of_pos x hb⟩, ?_⟩
    rcases lt_trichotomy x 0 with hx | rfl | hx
    · obtain ⟨_, _, hr⟩ := (Int.tdiv_tmod_unique' hx.le hb.ne').mp ⟨rfl, rfl⟩
      omega
    · exact .inl (Int.zero_tmod b)
    · have hr := Int.tmod_nonneg b hx.le
      omega
  · rintro ⟨r, hx, hr, hsign⟩
    have heq : r + b * q = x := by rw [hx, Int.mul_comm, Int.add_comm]
    obtain ⟨hlow, hhigh⟩ := abs_lt.mp hr
    rcases le_total 0 x with hpos | hneg
    · exact ((Int.tdiv_tmod_unique hpos hb.ne').mpr ⟨heq, by omega, by omega⟩).1
    · exact ((Int.tdiv_tmod_unique' hneg hb.ne').mpr ⟨heq, by omega, by omega⟩).1

/-- A positive quotient has a positive dividend. -/
theorem pos_of_tdiv_pos {x : Int} {n : Nat} (h : 0 < tdiv x n) : 0 < x := by
  by_contra hx
  have hneg : 0 ≤ tdiv (-x) n := Int.tdiv_nonneg (by omega) (by omega)
  rw [tdiv, Int.neg_tdiv] at hneg
  exact absurd h (by rw [tdiv]; omega)

/-- A negative quotient has a negative dividend. -/
theorem neg_of_tdiv_neg {x : Int} {n : Nat} (h : tdiv x n < 0) : x < 0 := by
  by_contra hx
  exact absurd h (Int.not_lt.mpr (Int.tdiv_nonneg (by omega) (by omega)))

/-! ## Publishing (R121, R241) -/

/-- A `SAMPLE` that sends a publish word or owes a polarity found everything in range, and published. -/
theorem Performed.publish_of_ne (h : Performed (.sample raw gate) s t) (ha : accumulate s.cfg s.demod raw gate = a)
    (hne : t.publishOut ≠ s.publishOut ∨ t.publishHalf ≠ s.publishHalf) :
    s.good ∧ a.overflow = none ∧ s.cfg.cycleThreshold ≤ a.gc ∧ fitsI32 (tdiv a.acc a.sc) = true ∧
      t = publish a (tdiv a.acc a.sc) s := by
  subst ha
  cases h with
  | published _ _ _ q hf hfit hdue hq hqfit =>
    subst hq
    exact ⟨hf, hfit, (publishDue_eq_true (accumulate_sc_pos ..)).mp hdue, hqfit, rfl⟩
  | ignored | raised | badSequence | accumulated => simp at hne

theorem settlePublish_of_half {p : BitVec 8} (hs : s.good) (hp : s.publishHalf = some p) :
    settlePublish s = finishPublish p s := by
  rw [settlePublish, hp]
  exact unlessFaulted_of_good hs _

/-- The second step completes the first one's publish. -/
theorem settlePublish_publish (hs : s.good) (hat : s.cfg.publishAtomic = false) (a : Accumulated) (q : Int) :
    settlePublish (publish a q s) = finishPublish (BitVec.ofInt 8 (polarityOf a.ps a.ns)) (beginPublish a q s) := by
  rw [publish_of_nonatomic hat]
  exact settlePublish_of_half hs rfl

/-- A half-done publish is finished by any step but a host word's, and the word that stands next is left to wait. -/
theorem step_of_publishHalf {p : BitVec 8} (hs : s.good) (hp : s.publishHalf = some p)
    (hnext : (∃ rest, fetch s.inputs = .nothing rest) ∨
      ∃ port e rest i, fetch s.inputs = .word port e rest ∧ decode e = .ok i ∧ i.agent ≠ .host) :
    ∃ is, step s = .next ((finishPublish p s).setInputs is) ∧
      ∀ port e rest, fetch s.inputs = .word port e rest → is = s.inputs := by
  have hsettle := settlePublish_of_half hs hp
  rcases hnext with ⟨rest, hfetch⟩ | ⟨port, e, rest, i, hfetch, hd, hagent⟩
  · exact ⟨rest, by simp only [step, hfetch, hsettle], fun _ _ _ hword => nomatch hfetch.symm.trans hword⟩
  · refine ⟨s.inputs, ?_, fun _ _ _ _ => rfl⟩
    have hopen : publishOpen s = true := by simp [publishOpen, hp, hs]
    have hfalls : fallsBetween e = false := by simp [fallsBetween, hd, hagent]
    simp only [step, hfetch, hopen, hfalls, Bool.not_false, Bool.and_self, if_true, hsettle]
    rfl

/-! ## The response to `RDPOL` (R126) -/

/-- The polarity's response has its signed value. -/
theorem polarityResponse_toInt (p : BitVec 8) : (polarityResponse p).toInt = p.toInt := by
  have hrange := Config.i8_range p
  refine toInt_ofInt32 ?_
  simp only [fitsI32, decide_eq_true_eq]
  omega

end Sys2Proof.Machine
end

section
/-! PROOFS. The statements on the Synchronous Demodulator. -/

namespace Sys2Proof.Machine

/-- Settles O49: a sample of `i32` operands adds at most `2^32 - 1` to a sum and one to the count, and `2^31` times
`2^32 - 1` fits an `i64`. -/
theorem sumsStayBoundedByTheSampleCount : Obligations.SumsStayBoundedByTheSampleCount := by
  refine ⟨fun _ _ => step_sumBounds, fun s t raw gate hf hs hraw hcount h ht => ?_⟩
  exact sample_faultCode hf rfl ((accumulate_bounded hs hraw gate).overflow_eq_none hcount) h ht

/-- Settles O12: the step is `finishPublish`, whose effect on each register is its definition. -/
theorem halfDonePublishIsFinishedFirst : Obligations.HalfDonePublishIsFinishedFirst := by
  intro s p hs hp hnext
  obtain ⟨is, hstep, hwait⟩ := step_of_publishHalf hs hp hnext
  exact ⟨_, hstep, rfl, rfl, rfl, rfl, rfl, rfl, rfl, rfl, rfl, rfl, ⟨⟨rfl, rfl⟩, rfl, fun _ => rfl, rfl⟩, ⟨rfl, rfl⟩,
    rfl, rfl, rfl, hwait⟩

/-- Settles O17: the `if` chain of the statement is that of `Accumulated.overflow`, and each of its ends is one outcome of
`SAMPLE`: first the two without a fault, then the magnitude's fault, then those of the four checks. -/
theorem sampleFollowsItsFiveSteps : Obligations.SampleFollowsItsFiveSteps := by
  intro s raw gate value acc ps ns q sc gc hvalue hacc hps hns hsc hgc rfl
  have ha := accumulate_eq hvalue hacc hps hns hsc hgc
  have hoverflow := Accumulated.overflow_eq ⟨acc, ps, ns, sc, gc, gate⟩
  dsimp only at hoverflow
  refine ⟨fun hf => congrArg _ (unlessFaulted_of_faulted hf _), fun hf => ?_⟩
  have hfault {reg : ArithReg} (ho : Accumulated.overflow ⟨acc, ps, ns, sc, gc, gate⟩ = some reg) :
      ∃ t, exec (.sample raw gate) s = .next t ∧ FaultedWith reg.code s t :=
    ⟨_, exec_sample_of_overflow hf ha ho, setFault_faultedWith s reg.code⟩
  simp only [← polarityOf_toInt]
  split_ifs at hoverflow ⊢ with h1 h2 h3 h4 hbelow hfit
  · obtain ⟨haccReg, hpsReg, hnsReg, hscReg⟩ := Accumulated.registers_exact hoverflow
    have hgcReg := Accumulated.registers_gateCount_of_lt (a := ⟨acc, ps, ns, sc, gc, gate⟩) hbelow
    exact ⟨_, exec_sample_of_below hf ha hoverflow hbelow, haccReg, hpsReg, hnsReg, hscReg, hgcReg, rfl, rfl, rfl,
      ⟨⟨rfl, rfl⟩, rfl, fun _ => rfl, rfl⟩, ⟨rfl, rfl⟩, ⟨rfl, rfl, rfl⟩, rfl, rfl⟩
  · have hqfit := decide_eq_true hfit
    refine ⟨_, exec_sample_of_publish hf ha hoverflow (Nat.le_of_not_lt hbelow) hqfit, fun hat => ?_⟩
    rw [publish_of_atomic hat]
    exact ⟨toInt_ofInt32 hqfit, rfl, rfl, rfl, rfl, rfl, rfl, rfl, rfl, rfl,
      ⟨⟨rfl, rfl⟩, rfl, fun _ => rfl, rfl⟩, ⟨rfl, rfl⟩, rfl, rfl, rfl, rfl⟩
  · exact ⟨_, exec_sample_of_unfit hf ha hoverflow (Nat.le_of_not_lt hbelow) (decide_eq_false hfit),
      setFault_faultedWith s 0x14⟩
  all_goals exact hfault hoverflow

/-- Settles O18: a sample without `PUBLISH_ATOMIC` begins its publish and owes the polarity. -/
theorem nonAtomicSampleIsTheFirstStepOfAPublish : Obligations.NonAtomicSampleIsTheFirstStepOfAPublish := by
  rintro s raw gate a q hf hat rfl ho hgc rfl hq
  have hqfit := decide_eq_true hq
  obtain ⟨hacc, hps, hns, hsc⟩ := Accumulated.registers_exact ho
  refine ⟨_, exec_sample_of_publish hf rfl ho hgc hqfit, ?_⟩
  rw [publish_of_nonatomic hat]
  exact ⟨toInt_ofInt32 hqfit, rfl, ⟨_, rfl, polarityOf_toInt ..⟩, hacc, hps, hns, hsc, rfl,
    accumulate_pg s.cfg s.demod raw gate, ⟨⟨rfl, rfl⟩, rfl, fun _ => rfl, rfl⟩, ⟨rfl, rfl⟩, ⟨rfl, rfl, rfl⟩, rfl, rfl⟩

/-- Settles O19: quotient and remainder of the truncating division are unique, for either sign of the dividend. -/
theorem tdivRoundsTowardZero : Obligations.TdivRoundsTowardZero := fun _ _ hb _ => tdiv_eq_iff hb

/-- Settles O20: the polarity compares the sums, whose difference is the accumulator (R26), and the magnitude is the
accumulator over a positive count. -/
theorem publishedPolarityIsTheAccumulatorsSign : Obligations.PublishedPolarityIsTheAccumulatorsSign := by
  intro s t raw gate hf ⟨hdiff, _⟩ hat h hword
  obtain ⟨_, _, _, hqfit, rfl⟩ := (exec_performed h).publish_of_ne rfl (.inl hword)
  have hacc := accumulate_acc (c := s.cfg) hdiff raw gate
  rw [publish_of_atomic hat, ← accumulate_acc_eq]
  generalize accumulate s.cfg s.demod raw gate = a at hqfit hacc
  have hmag : (BitVec.ofInt 32 (tdiv a.acc a.sc)).toInt = tdiv a.acc a.sc := toInt_ofInt32 hqfit
  have hpol : BitVec.ofInt 8 (polarityOf a.ps a.ns) = 1 ↔ 0 < a.acc := ofInt_polarityOf_eq_one.trans (by omega)
  have hcases := polarityOf_cases a.ps a.ns
  refine ⟨hcases, hpol, fun hpos => hpol.mpr (pos_of_tdiv_pos (hmag ▸ hpos)), fun hneg => ?_⟩
  exact hcases.resolve_left (mt hpol.mp (Int.not_lt.mpr (neg_of_tdiv_neg (hmag ▸ hneg)).le))

/-- Settles O21: neither value of `PUBLISH_ATOMIC` enters steps 1 to 4, and the one publish is the other's two steps. -/
theorem twoStepPublishEqualsOneStepPublish : Obligations.TwoStepPublishEqualsOneStepPublish := by
  intro s t u raw gate p hat hnone ht hp hu
  have hne : t.publishHalf ≠ s.publishHalf := by rw [hp, hnone]; nofun
  obtain ⟨hf, ho, hgc, hqfit, rfl⟩ := (exec_performed ht).publish_of_ne rfl (.inr hne)
  have hatomic := exec_sample_of_publish (s := { s with cfg := { s.cfg with publishAtomic := true } })
    (a := accumulate s.cfg s.demod raw gate) hf rfl ho hgc hqfit
  obtain rfl := Host.Outcome.next.inj (hatomic.symm.trans hu)
  rw [settlePublish_publish hf hat, publish_of_atomic rfl]
  rfl

/-- Settles O22: a host event on a ready block is its effect. -/
theorem rdmagRespondsWithTheMagnitude : Obligations.RdmagRespondsWithTheMagnitude := fun _ =>
  ⟨fun hf => congrArg _ (hostEvent_of_faulted hf _), fun ⟨hf, hn⟩ => congrArg _ (hostEvent_of_ready hf hn _)⟩

/-- Settles O23: every `i8` is an `i32`. -/
theorem rdpolRespondsWithThePolaritySignExtended : Obligations.RdpolRespondsWithThePolaritySignExtended := fun _ =>
  ⟨fun hf => congrArg _ (hostEvent_of_faulted hf _), fun ⟨hf, hn⟩ =>
    ⟨_, polarityResponse_toInt _, congrArg _ (hostEvent_of_ready hf hn _)⟩⟩

end Sys2Proof.Machine
end

section
/-! SUPPORT. The Real-Time Dispatcher: what a `TICK` leaves of the rest of the block (R142), and the `TICK` with nothing to
do (R140). -/

namespace Sys2Proof.Machine

variable {s t : State} {i : Instr}

/-! ## What a `TICK` leaves alone -/

/-- All that lies outside the buttons, the fired flags, the display registers and the display port. -/
theorem State.withTicked_keeps (s u : State) :
    KeepsMeasurement s (s.withTicked u) ∧ KeepsBuffer s (s.withTicked u) ∧ KeepsFault s (s.withTicked u) ∧
      KeepsSurroundings s (s.withTicked u) ∧ (s.withTicked u).text = s.text ∧
      (s.withTicked u).publishOut = s.publishOut ∧ (s.withTicked u).responses = s.responses :=
  ⟨⟨rfl, rfl, rfl⟩, fun _ => rfl, ⟨rfl, rfl⟩, ⟨rfl, rfl⟩, rfl, rfl, rfl⟩

/-- An event that does not see the cursor and the display stage leaves them: written over with themselves before it, they
are what they were after it (R69). -/
theorem exec_position (htick : i.agent ≠ .timer) (hreset : i ≠ .reset) (h : exec i s = .next t) :
    t.disp.cursor = s.disp.cursor ∧ t.disp.stage = s.disp.stage := by
  have hblind : exec i s = Result.map (·.withPosition s.disp.cursor s.disp.stage) (exec i s) :=
    exec_withPosition s.disp.cursor s.disp.stage htick hreset s
  rw [h] at hblind
  rw [Host.Outcome.next.inj hblind]
  exact ⟨rfl, rfl⟩

/-! ## A `TICK` with nothing to do -/

/-- With all five bits of the mask set no button is held (R181). -/
theorem isHeld_allOnes (b : Fin 5) : isHeld 0b11111#5 b = false := by
  revert b
  decide

/-- A released button in `Idle` with no ticks counted stays as it is (R183). -/
theorem buttonAdvance_idle (c : Config) {b : ButtonState} (hstage : b.stage = .idle) (hhold : b.holdTicks = 0) :
    buttonAdvance c false b = b := by
  cases b
  cases hstage
  cases hhold
  rfl

/-- A released button emits no event (R183 to R185). -/
@[simp] theorem buttonEvent_released (c : Config) (b : ButtonState) : buttonEvent c false b = false := rfl

/-- The debounce step writes nothing where every button is released and at rest. -/
theorem debounceAdvance_idle {mask : BitVec 5} (hmask : ∀ b, isHeld mask b = false)
    (hs : ∀ b, (s.btn.get b).stage = .idle ∧ (s.btn.get b).holdTicks = 0) : debounceAdvance mask s = s := by
  have hbtn : (debounceAdvance mask s).btn = s.btn := by
    ext1 b
    obtain ⟨hstage, hhold⟩ := hs b
    rw [debounceAdvance_btn, hmask, buttonAdvance_idle s.cfg hstage hhold]
  have hfired : (debounceAdvance mask s).fired = s.fired := by
    ext1 b
    rw [debounceAdvance_fired, hmask, buttonEvent_released, Bool.or_false]
  rw [debounceAdvance_frame, hbtn, hfired]

/-- The display step in `Idle` with nothing new to show is no change (R157). -/
theorem displayAdvance_idle (hstage : s.disp.stage = .idle) (hdirty : s.disp.dirty = false) :
    displayAdvance s = .next s := by
  simp [displayAdvance, displayIdle, hstage, hdirty]

end Sys2Proof.Machine
end

section
/-! PROOFS. The statements on the Real-Time Dispatcher. -/

namespace Sys2Proof.Machine

/-- Settles O24: the display step and the debounce step write what `State.withTicked` names, the latter no `press_count`;
every other event is blind to the cursor, the display stage and the buttons. -/
theorem tickWritesItsRegistersOnlyAndAlone : Obligations.TickWritesItsRegistersOnlyAndAlone := by
  refine ⟨fun s mask _ hcursor => ?_, fun i s t htick hreset h => ?_⟩
  · obtain ⟨t, h⟩ := exec_next hcursor (.tick mask)
    have hkeeps := s.withTicked_keeps t
    rw [← tick_frame h] at hkeeps
    obtain ⟨hmeasurement, hbuffer, hfault, hsurroundings, htext, hpublish, hresponses⟩ := hkeeps
    exact ⟨t, h, hmeasurement, hbuffer, hfault, hsurroundings, htext, hpublish, hresponses,
      (exec_performed h).pressCount_eq nofun⟩
  · have hagent := Instr.agent_ne_timer htick
    obtain ⟨hcursor, hstage⟩ := exec_position hagent hreset h
    refine ⟨hcursor, hstage, fun b => ?_⟩
    rw [(exec_performed h).btn_eq hagent hreset]
    exact ⟨rfl, rfl⟩

/-- Settles O25: neither step of the `TICK` has anything to do, and a faulted block ignores it. -/
theorem idleTickChangesNothing : Obligations.IdleTickChangesNothing := by
  intro s hstage hdirty hbuttons
  simp only [exec, execTick, tickEffect, displayAdvance_idle hstage hdirty,
    debounceAdvance_idle isHeld_allOnes hbuttons, ite_self]

end Sys2Proof.Machine
end

section
/-! SUPPORT. Runs of events: what a faulted block makes of them (R200), and the words of a text performed one after another
(R92, R101). -/

namespace Sys2Proof.Machine

variable {s t : State} {i : Instr} {is : List Instr}

/-! ## Sequences of events -/

/-- The head of a sequence is performed first (R12, R71). -/
theorem performAll_cons (h : exec i s = .next t) : performAll (i :: is) s = performAll is t := by
  simp only [performAll, h]

/-- A faulted block ignores every event but `RESET` (R200). -/
theorem exec_of_faulted (hf : s.faulted = true) (hi : i ≠ .reset) : exec i s = .next s := by
  cases i with
  | reset => exact absurd rfl hi
  | tick => exact if_pos hf
  | sample | textdata => exact congrArg _ (unlessFaulted_of_faulted hf _)
  | settext | rdmag | rdpol | rdfired => exact congrArg _ (hostEvent_of_faulted hf _)

theorem performAll_of_faulted (hf : s.faulted = true) (his : ∀ i ∈ is, i ≠ .reset) : performAll is s = .next s := by
  induction is with
  | nil => rfl
  | cons i is ih =>
    rw [performAll_cons (exec_of_faulted hf (his i List.mem_cons_self))]
    exact ih fun j hj => his j (List.mem_cons_of_mem i hj)

theorem Instr.ne_reset_of_mem_text {row col : Nat} {bytes : List Byte} (h : i ∈ Instr.text row col bytes) :
    i ≠ .reset := by
  rcases List.mem_cons.mp h with rfl | hdata
  · nofun
  · obtain ⟨byte, _, rfl⟩ := List.mem_map.mp hdata
    nofun

/-! ## The words of a text -/

/-- A header with bytes to come opens a text (R101). -/
theorem exec_settext_of_pos {row col len : Nat} (hs : s.hostReady) (hlen : len ≠ 0) :
    exec (.settext row col len) s = .next (s.setAssembly ⟨row, col, len, []⟩) :=
  congrArg Host.Outcome.next ((hostEvent_of_ready hs.1 hs.2 _).trans (if_neg hlen))

/-- A header with none is the whole text (R101). -/
theorem exec_settext_zero {row col : Nat} (hs : s.hostReady) :
    exec (.settext row col 0) s = .next (performText row col [] s) :=
  congrArg _ (hostEvent_of_ready hs.1 hs.2 _)

/-- A data word with more to come is kept (R101). -/
theorem exec_textdata_of_more {byte : Byte} {n : Nat} (hf : s.good) (hn : s.text.need = n + 2) :
    exec (.textdata byte) s =
      .next (s.setAssembly ⟨s.text.row, s.text.col, n + 1, s.text.bytes ++ [byte]⟩) := by
  refine congrArg _ ((unlessFaulted_of_good hf _).trans ?_)
  simp only [textdataEffect, hn]

/-- The last data word performs the text (R165). -/
theorem exec_textdata_of_last {byte : Byte} (hf : s.good) (hn : s.text.need = 1) :
    exec (.textdata byte) s =
      .next (performText s.text.row s.text.col (s.text.bytes ++ [byte]) (s.setAssembly .none)) := by
  refine congrArg _ ((unlessFaulted_of_good hf _).trans ?_)
  simp only [textdataEffect, hn]

/-- Fewer data words than are owed write the text assembly only (R92). -/
theorem performAll_textdata_of_lt {bytes : List Byte} (hf : s.good) (hlen : bytes.length < s.text.need) :
    ∃ text, performAll (bytes.map .textdata) s = .next (s.setAssembly text) := by
  induction bytes generalizing s with
  | nil => exact ⟨s.text, rfl⟩
  | cons byte bytes ih =>
    rw [List.length_cons] at hlen
    obtain ⟨n, hn⟩ : ∃ n, s.text.need = n + 2 := ⟨s.text.need - 2, by omega⟩
    rw [List.map_cons, performAll_cons (exec_textdata_of_more hf hn)]
    exact ih hf (by simpa only [State.setAssembly_text, hn] using (by omega : bytes.length < n + 1))

/-- Exactly the data words owed perform the text (R101, R152). -/
theorem performAll_textdata_of_eq {bytes : List Byte} (hf : s.good) (hlen : bytes.length = s.text.need)
    (hpos : s.text.need ≠ 0) :
    performAll (bytes.map .textdata) s =
      .next (performText s.text.row s.text.col (s.text.bytes ++ bytes) (s.setAssembly .none)) := by
  induction bytes generalizing s with
  | nil => exact absurd hlen.symm hpos
  | cons byte bytes ih =>
    rw [List.length_cons] at hlen
    cases bytes with
    | nil => exact performAll_cons (exec_textdata_of_last hf hlen.symm)
    | cons byte' bytes =>
      rw [List.map_cons, performAll_cons (exec_textdata_of_more hf hlen.symm),
        ih (s := s.setAssembly ⟨_, _, bytes.length + 1, _⟩) hf rfl (Nat.add_one_ne_zero _)]
      simp only [State.setAssembly_text, List.append_assoc, List.singleton_append]
      rfl

/-- The first words of a text, the last one not among them, write the text assembly only (R92). -/
theorem performAll_take_text (hs : s.hostReady) {bytes : List Byte} {n : Nat} (hn : n ≤ bytes.length) (row col : Nat) :
    ∃ text, performAll ((Instr.text row col bytes).take n) s = .next (s.setAssembly text) := by
  cases n with
  | zero => exact ⟨s.text, rfl⟩
  | succ n =>
    rw [Instr.text, List.take_succ_cons, ← List.map_take, performAll_cons (exec_settext_of_pos hs (by omega))]
    refine performAll_textdata_of_lt (s := s.setAssembly _) hs.1 ?_
    simp only [List.length_take, State.setAssembly_text]
    omega

/-- All the words of a text are one `performText` (R152). -/
theorem performAll_text (hs : s.hostReady) (htext : s.text = .none) (row col : Nat) (bytes : List Byte) :
    performAll (Instr.text row col bytes) s = .next (performText row col bytes s) := by
  cases bytes with
  | nil => exact performAll_cons (exec_settext_zero hs)
  | cons byte bytes =>
    rw [Instr.text, List.length_cons, performAll_cons (exec_settext_of_pos hs (Nat.add_one_ne_zero _)),
      performAll_textdata_of_eq (s := s.setAssembly ⟨row, col, bytes.length + 1, []⟩) hs.1 rfl
        (Nat.add_one_ne_zero _)]
    have hclosed : s.setAssembly .none = s := congrArg s.setAssembly htext.symm
    exact congrArg (fun u => Host.Outcome.next (performText row col (byte :: bytes) u)) hclosed

end Sys2Proof.Machine
end

section
/-! SUPPORT. The display step within a `TICK`, stage by stage (R157 to R160), and a display pass: where it stands after each
of its ticks and what it has sent by then (R161, R162). -/

namespace Sys2Proof.Machine

variable {s t : State} {c : Config} {r col j k : Nat}

/-! ## The display step of a `TICK` -/

/-- A `TICK` on an unfaulted block is the display step and then the debounce step (R140). -/
theorem exec_tick_of_displayAdvance (hs : s.good) (h : displayAdvance s = .next t) (mask : BitVec 5) :
    exec (.tick mask) s = .next (debounceAdvance mask t) := by
  simp only [exec, execTick, hs, tickEffect, h, Bool.false_eq_true, if_false]

theorem displayAdvance_idle_of_dirty (hstage : s.disp.stage = .idle) (hdirty : s.disp.dirty = true) :
    displayAdvance s = .next (s.setDisp ⟨0, .positionRow, false⟩) := by
  simp only [displayAdvance, displayIdle, hstage, hdirty, if_true]

theorem displayAdvance_positionRow (hstage : s.disp.stage = .positionRow) (hc : s.disp.cursor.toNat < s.cfg.cells) :
    displayAdvance s = .next (displayPositionRow s) := by
  simp only [displayAdvance, hstage, atCursor, hc, if_true]

theorem displayAdvance_positionColumn (hstage : s.disp.stage = .positionColumn)
    (hc : s.disp.cursor.toNat < s.cfg.cells) : displayAdvance s = .next (displayPositionColumn s) := by
  simp only [displayAdvance, hstage, atCursor, hc, if_true]

theorem displayAdvance_emit (hstage : s.disp.stage = .emit) (hc : s.disp.cursor.toNat < s.cfg.cells) :
    displayAdvance s = .next (displayEmit s) := by
  simp only [displayAdvance, hstage, atCursor, hc, if_true]

/-! ## Where a pass stands -/

/-- The display registers before row `r` of a pass: back in `Idle` after the last row. -/
def rowStart (c : Config) (r : Nat) : DisplayRegs :=
  if r = c.height then ⟨0, .idle, false⟩ else ⟨BitVec.ofNat 16 (r * c.width), .positionRow, false⟩

/-- The display registers when `j` words of row `r` have been sent; `j = W + 2` is the start of the next row. -/
def passRegs (c : Config) (r : Nat) : Nat → DisplayRegs
  | 0 => rowStart c r
  | 1 => ⟨BitVec.ofNat 16 (r * c.width), .positionColumn, false⟩
  | col + 2 =>
    if col < c.width then ⟨BitVec.ofNat 16 (r * c.width + col), .emit, false⟩ else rowStart c (r + 1)

/-- Word `j` of row `r` (R162). -/
def rowWord (s : State) (r : Nat) : Nat → DisplayWord
  | 0 => displayWord 0x01 r 0 0
  | 1 => displayWord 0x02 r 0 0
  | col + 2 => dataWord (s.cell (r * s.cfg.width + col))

theorem rowWords_eq_map (s : State) (r : Nat) : rowWords s r = (List.range (s.cfg.width + 2)).map (rowWord s r) := by
  simp only [rowWords, List.range_succ_eq_map, List.map_cons, List.map_map]
  rfl

theorem rowStart_of_lt (h : r < c.height) : rowStart c r = ⟨BitVec.ofNat 16 (r * c.width), .positionRow, false⟩ :=
  if_neg (by omega)

theorem width_pos (c : Config) : 0 < c.width := c.width_legal.1

/-- Column `col` of row `r` is a cell (R60, R61). -/
theorem cell_lt_cells (hr : r < c.height) (hcol : col < c.width) : r * c.width + col < c.cells := by
  have hle : (r + 1) * c.width ≤ c.height * c.width := Nat.mul_le_mul_right _ hr
  rw [Nat.succ_mul, Nat.mul_comm c.height] at hle
  unfold Config.cells
  omega

theorem firstCell_lt_cells (hr : r < c.height) : r * c.width < c.cells := cell_lt_cells hr (width_pos c)

/-- The display words for the first cell of a row name the row and column 0 (R162). -/
theorem setCursorWord_rowStart (c : Config) (r : Nat) : setCursorWord c (r * c.width) = displayWord 0x01 r 0 0 := by
  rw [setCursorWord, rowOf, colOf, Nat.mul_div_cancel r (width_pos c), Nat.mul_mod_left]

theorem positionWord_rowStart (c : Config) (r : Nat) : positionWord c (r * c.width) = displayWord 0x02 r 0 0 := by
  rw [positionWord, rowOf, colOf, Nat.mul_div_cancel r (width_pos c), Nat.mul_mod_left]

/-- The cursor holds the offset of a cell exactly (R39). -/
theorem cursor_toNat (h : k < c.cells) : (BitVec.ofNat 16 k).toNat = k := by
  have hfit := c.cells_lt
  rw [BitVec.toNat_ofNat, Nat.mod_eq_of_lt (by omega)]

/-- `Emit` at the last cell ends the pass (R160). -/
theorem afterEmit_last {d : DisplayRegs} (h : d.cursor.toNat + 1 = c.cells) :
    afterEmit c d = { d with cursor := 0, stage := .idle } := if_pos h

/-- `Emit` at any other cell moves on to the next one, which begins a row where the width divides its offset (R160). -/
theorem afterEmit_more {d : DisplayRegs} (h : d.cursor.toNat + 1 ≠ c.cells) :
    afterEmit c d = ⟨BitVec.ofNat 16 (d.cursor.toNat + 1),
      if (d.cursor.toNat + 1) % c.width = 0 then .positionRow else d.stage, d.dirty⟩ := by
  simp only [afterEmit, h, if_false]
  split <;> rfl

/-- `Emit` moves from a cell to the next one of its row, or to the next row (R160). -/
theorem afterEmit_passRegs (hr : r < c.height) (hcol : col < c.width) :
    afterEmit c ⟨BitVec.ofNat 16 (r * c.width + col), .emit, false⟩ = passRegs c r (col + 3) := by
  have hcursor : (BitVec.ofNat 16 (r * c.width + col)).toNat = r * c.width + col := cursor_toNat (cell_lt_cells hr hcol)
  by_cases hend : col + 1 < c.width
  · have hne : r * c.width + col + 1 ≠ c.cells := (cell_lt_cells hr hend).ne
    have hmod : (r * c.width + col + 1) % c.width = col + 1 := by
      rw [Nat.add_assoc, Nat.mul_add_mod_self_right, Nat.mod_eq_of_lt hend]
    rw [afterEmit_more (by rwa [hcursor]), passRegs, if_pos hend]
    simp only [hcursor, hmod, Nat.add_one_ne_zero, if_false]
    rfl
  · have hnext : r * c.width + col + 1 = (r + 1) * c.width := by
      rw [Nat.succ_mul]
      omega
    rw [passRegs, if_neg hend, rowStart]
    by_cases hlast : r + 1 = c.height
    · rw [if_pos hlast, afterEmit_last (by rw [hcursor, hnext, hlast]; exact Nat.mul_comm ..)]
    · have hcell : (r + 1) * c.width < c.cells := firstCell_lt_cells (by omega)
      rw [if_neg hlast, afterEmit_more (by rw [hcursor, hnext]; exact hcell.ne)]
      simp only [hcursor, hnext, Nat.mul_mod_left, if_true]

/-- A pass is in `Idle` at its end only. -/
theorem passRegs_stage_ne_idle (hr : r < c.height) (hj : j < c.width + 2) : (passRegs c r j).stage ≠ .idle := by
  match j, hj with
  | 0, _ =>
    rw [passRegs, rowStart_of_lt hr]
    nofun
  | 1, _ => nofun
  | col + 2, hj =>
    rw [passRegs, if_pos (by omega)]
    nofun

/-! ## The ticks of a pass -/

/-- The block `t` in a pass that found the block as `s`: the rows before `r` and `j` words of row `r` have been sent. -/
structure InPass (s t : State) (r j : Nat) : Prop where
  good : t.good
  cfg : t.cfg = s.cfg
  mem : t.mem = s.mem
  disp : t.disp = passRegs s.cfg r j
  sent : t.displayOut = s.displayOut ++ (List.range r).flatMap (rowWords s) ++ (List.range j).map (rowWord s r)

/-- After the last word of a row the next one begins. -/
theorem InPass.nextRow (h : InPass s t r (s.cfg.width + 2)) : InPass s t (r + 1) 0 where
  good := h.good
  cfg := h.cfg
  mem := h.mem
  disp := h.disp.trans (if_neg (Nat.lt_irrefl _))
  sent := by
    rw [h.sent, ← rowWords_eq_map]
    simp [List.range_succ]

/-- In a pass the display step sends the next word of the row and moves on by one (R158 to R160). -/
theorem InPass.displayAdvance_eq (h : InPass s t r j) (hr : r < s.cfg.height) (hj : j < s.cfg.width + 2) :
    displayAdvance t = .next ((t.emitDisplay (rowWord s r j)).setDisp (passRegs s.cfg r (j + 1))) := by
  obtain ⟨_, hcfg, hmem, hdisp, _⟩ := h
  match j, hj with
  | 0, _ =>
    have hcell := firstCell_lt_cells hr
    rw [passRegs, rowStart_of_lt hr] at hdisp
    rw [displayAdvance_positionRow (by rw [hdisp]) (by rwa [hcfg, hdisp, cursor_toNat hcell])]
    simp only [displayPositionRow, hcfg, hdisp, cursor_toNat hcell, setCursorWord_rowStart, rowWord, passRegs]
  | 1, _ =>
    have hcell := firstCell_lt_cells hr
    rw [passRegs] at hdisp
    rw [displayAdvance_positionColumn (by rw [hdisp]) (by rwa [hcfg, hdisp, cursor_toNat hcell])]
    simp only [displayPositionColumn, hcfg, hdisp, cursor_toNat hcell, positionWord_rowStart, rowWord, passRegs,
      width_pos, if_true, Nat.add_zero]
  | col + 2, hj =>
    have hcol : col < s.cfg.width := by omega
    have hcell := cell_lt_cells hr hcol
    rw [passRegs, if_pos hcol] at hdisp
    rw [displayAdvance_emit (by rw [hdisp]) (by rwa [hcfg, hdisp, cursor_toNat hcell])]
    simp only [displayEmit, hcfg, hdisp, cursor_toNat hcell, afterEmit_passRegs hr hcol, State.cell, hmem, rowWord]

/-- A `TICK` in a pass sends the next word, whatever its mask. -/
theorem InPass.tick (h : InPass s t r j) (hr : r < s.cfg.height) (hj : j < s.cfg.width + 2) (mask : BitVec 5) :
    ∃ u, exec (.tick mask) t = .next u ∧ InPass s u r (j + 1) :=
  ⟨_, exec_tick_of_displayAdvance h.good (h.displayAdvance_eq hr hj) mask, h.good, h.cfg, h.mem, rfl, by
    rw [List.range_succ, List.map_append, ← List.append_assoc, ← h.sent]
    rfl⟩

/-- The block `t` in a pass that has sent `k` words. -/
def HasSent (s t : State) (k : Nat) : Prop :=
  ∃ r j, InPass s t r j ∧ j < s.cfg.width + 2 ∧ k = r * (s.cfg.width + 2) + j

/-- A place before the end of `h` rows of `w` lies in a row that exists. -/
theorem row_lt_of_lt {w h : Nat} (hk : r * w + j < h * w) : r < h :=
  Nat.lt_of_mul_lt_mul_right (Nat.lt_of_le_of_lt (Nat.le_add_right ..) hk)

/-- Each `TICK` before the end of a pass sends one word. -/
theorem HasSent.tick (h : HasSent s t k) (hk : k < s.cfg.height * (s.cfg.width + 2)) (mask : BitVec 5) :
    ∃ u, exec (.tick mask) t = .next u ∧ HasSent s u (k + 1) := by
  obtain ⟨r, j, hpass, hj, rfl⟩ := h
  obtain ⟨u, hu, hnext⟩ := hpass.tick (row_lt_of_lt hk) hj mask
  refine ⟨u, hu, ?_⟩
  by_cases hend : j + 1 < s.cfg.width + 2
  · exact ⟨r, j + 1, hnext, hend, rfl⟩
  · obtain rfl : j = s.cfg.width + 1 := by omega
    exact ⟨r + 1, 0, hnext.nextRow, by omega, by ring⟩

theorem HasSent.ticks (masks : List (BitVec 5)) (h : HasSent s t k)
    (hk : k + masks.length ≤ s.cfg.height * (s.cfg.width + 2)) :
    ∃ u, performAll (masks.map .tick) t = .next u ∧ HasSent s u (k + masks.length) := by
  induction masks generalizing t k with
  | nil => exact ⟨t, rfl, h⟩
  | cons mask masks ih =>
    rw [List.length_cons] at hk
    obtain ⟨u, hu, hnext⟩ := h.tick (by omega) mask
    obtain ⟨v, hv, hlast⟩ := ih hnext (by omega)
    refine ⟨v, (performAll_cons hu).trans hv, ?_⟩
    rwa [List.length_cons, Nat.add_comm masks.length, ← Nat.add_assoc]

/-- A pass that has words to send is not in `Idle`. -/
theorem HasSent.stage_ne_idle (h : HasSent s t k) (hk : k < s.cfg.height * (s.cfg.width + 2)) :
    t.disp.stage ≠ .idle := by
  obtain ⟨r, j, hpass, hj, rfl⟩ := h
  rw [hpass.disp]
  exact passRegs_stage_ne_idle (row_lt_of_lt hk) hj

/-- A pass that has sent its last word is at the start of a row `H` that does not exist. -/
theorem HasSent.inPass_end (h : HasSent s t (s.cfg.height * (s.cfg.width + 2))) : InPass s t s.cfg.height 0 := by
  obtain ⟨r, j, hpass, hj, hk⟩ := h
  have hsplit : j + (s.cfg.width + 2) * r = s.cfg.height * (s.cfg.width + 2) := by
    rw [hk, Nat.add_comm, Nat.mul_comm]
  obtain ⟨hrow, hword⟩ := (Nat.div_mod_unique (Nat.succ_pos (s.cfg.width + 1))).mpr ⟨hsplit, hj⟩
  rw [Nat.mul_div_cancel _ (Nat.succ_pos _)] at hrow
  rw [Nat.mul_mod_left] at hword
  rwa [hrow, hword]

/-- The first `TICK` of a pass sends nothing and stands before row 0 (R157). -/
theorem exec_tick_starts_pass (hs : s.good) (hstage : s.disp.stage = .idle) (hdirty : s.disp.dirty = true)
    (mask : BitVec 5) : ∃ t, exec (.tick mask) s = .next t ∧ HasSent s t 0 := by
  have hheight := s.cfg.height_legal
  refine ⟨_, exec_tick_of_displayAdvance hs (displayAdvance_idle_of_dirty hstage hdirty) mask, 0, 0, ?_, by omega,
    by omega⟩
  have hregs : passRegs s.cfg 0 0 = ⟨0, .positionRow, false⟩ := by
    rw [passRegs, rowStart_of_lt (by omega), Nat.zero_mul]
    rfl
  have hsent : s.displayOut = s.displayOut ++ (List.range 0).flatMap (rowWords s) ++ (List.range 0).map (rowWord s 0) := by
    simp only [List.range_zero, List.flatMap_nil, List.map_nil, List.append_nil]
  exact ⟨hs, rfl, rfl, hregs.symm, hsent⟩

end Sys2Proof.Machine
end

section
/-! PROOFS. The statements on the Display Multiplexer. -/

namespace Sys2Proof.Machine

/-- Settles O26: the display step of each stage, which the debounce step leaves as it is. -/
theorem displayStepFollowsItsTable : Obligations.DisplayStepFollowsItsTable := by
  intro s mask cur W H hs hcursor hcur hW hH
  subst hcur hW hH
  have hcell (h : s.disp.stage ≠ .idle) := hcursor.resolve_left h
  cases hstage : s.disp.stage with
  | idle =>
    cases hdirty : s.disp.dirty with
    | false => exact ⟨_, exec_tick_of_displayAdvance hs (displayAdvance_idle hstage hdirty) mask, rfl, rfl⟩
    | true =>
      exact ⟨_, exec_tick_of_displayAdvance hs (displayAdvance_idle_of_dirty hstage hdirty) mask, rfl, rfl, rfl, rfl⟩
  | positionRow =>
    exact ⟨_, exec_tick_of_displayAdvance hs (displayAdvance_positionRow hstage (hcell (by simp [hstage]))) mask, rfl,
      rfl, rfl, rfl⟩
  | positionColumn =>
    exact ⟨_, exec_tick_of_displayAdvance hs (displayAdvance_positionColumn hstage (hcell (by simp [hstage]))) mask,
      rfl, rfl, rfl, rfl⟩
  | emit =>
    have hcell := hcell (by simp [hstage])
    refine ⟨_, exec_tick_of_displayAdvance hs (displayAdvance_emit hstage hcell) mask, rfl, ?_⟩
    by_cases hlast : s.disp.cursor.toNat + 1 = s.cfg.width * s.cfg.height
    · have hdisp := afterEmit_last (c := s.cfg) hlast
      rw [if_pos hlast]
      exact ⟨congrArg (·.dirty) hdisp, congrArg (·.stage) hdisp, congrArg (·.cursor) hdisp⟩
    · have hdisp := afterEmit_more (c := s.cfg) hlast
      have hcursor : (BitVec.ofNat 16 (s.disp.cursor.toNat + 1)).toNat = s.disp.cursor.toNat + 1 :=
        cursor_toNat (Nat.lt_of_le_of_ne hcell hlast)
      rw [hstage] at hdisp
      rw [if_neg hlast]
      exact ⟨congrArg (·.dirty) hdisp, (congrArg (·.cursor.toNat) hdisp).trans hcursor, congrArg (·.stage) hdisp⟩

/-- Settles O30: the words before the last one write the text assembly only, and all of them together are one
`performText`. -/
theorem settextCopiesClipsAndSetsDirty : Obligations.SettextCopiesClipsAndSetsDirty := by
  refine ⟨fun s row col bytes hf => performAll_of_faulted hf fun _ => Instr.ne_reset_of_mem_text, ?_, ?_⟩
  · intro s row col bytes n hs hn
    obtain ⟨text, h⟩ := performAll_take_text hs hn row col
    exact ⟨_, h, rfl⟩
  · intro s row col bytes W H hs hmem ⟨htext, _⟩ hW hH
    subst hW hH
    refine ⟨_, performAll_text hs (htext hs.2) row col bytes, ?_⟩
    by_cases hin : row < s.cfg.height ∧ col < s.cfg.width
    · rw [if_neg (by omega), performText_of_inside hin]
      exact ⟨rfl, rfl, rfl, rfl, fun _ => Memory.read_copyText_inside hmem, fun _ => Memory.read_copyText_outside hmem,
        ⟨rfl, rfl, rfl⟩, ⟨rfl, rfl⟩, ⟨rfl, rfl⟩, ⟨rfl, rfl, rfl⟩, rfl, rfl⟩
    · rw [if_pos (by omega)]
      exact performText_of_outside hin bytes

/-- Settles O33: the first tick enters row 0, each one after it sends the next word of the row it is in. -/
theorem displayPassSendsEveryCellOnce : Obligations.DisplayPassSendsEveryCellOnce := by
  intro s masks hs hstage hdirty
  cases masks with
  | nil => exact ⟨fun h => by rw [List.length_nil] at h; omega, nofun⟩
  | cons mask masks =>
    obtain ⟨t, ht, hstart⟩ := exec_tick_starts_pass hs hstage hdirty mask
    rw [List.map_cons, performAll_cons ht, List.length_cons]
    refine ⟨fun hlen => ?_, fun _ hlen => ?_⟩
    · obtain ⟨u, hu, hsent⟩ := hstart.ticks masks (by omega)
      have hall : 0 + masks.length = s.cfg.height * (s.cfg.width + 2) := by omega
      have hend : InPass s u s.cfg.height 0 := HasSent.inPass_end (hall ▸ hsent)
      have hdisp : u.disp = ⟨0, .idle, false⟩ := hend.disp.trans (if_pos rfl)
      refine ⟨u, hu, by rw [hdisp], by rw [hdisp], by rw [hdisp], ?_⟩
      rw [hend.sent, List.range_zero, List.map_nil, List.append_nil, passWords]
    · obtain ⟨u, hu, hsent⟩ := hstart.ticks masks (by omega)
      exact ⟨u, hu, hsent.stage_ne_idle (by omega)⟩

end Sys2Proof.Machine
end

section
/-! SUPPORT. The Debounce/Repeat Engine: what a `TICK` makes of one button (R181 to R188), a continuous hold (R189), and
what `RDFIRED` makes of the fired flags (R190, R191). -/

namespace Sys2Proof.Machine

variable {s t : State} {i : Instr} {is : List Instr} {mask : BitVec 5} {b : Fin 5} {c : Config} {stage : ButtonStage}
  {hold n : Nat}

/-! ## One button in a `TICK` -/

/-- A 0 in the raw mask is a held button (R181). -/
theorem isHeld_eq (mask : BitVec 5) (b : Fin 5) : isHeld mask b = !mask.getLsbD b.val := by
  simp [isHeld, activeMask]

theorem buttonEvent_held (c : Config) (st : ButtonState) :
    buttonEvent c true st = decide (stageThreshold c st.stage ≤ st.holdTicks.toNat + 1) := Bool.true_and _

/-- What a release keeps of the count: all of it or nothing, and nothing in `Idle` (R183, R188). -/
theorem holdAfterRelease_eq (c : Config) (st : ButtonState) :
    holdAfterRelease c st = if st.stage ≠ .idle ∧ c.releaseKeepsHold = true then st.holdTicks else 0 := by
  unfold holdAfterRelease
  cases st.stage with
  | idle => exact (if_neg fun ⟨hne, _⟩ => hne rfl).symm
  | held | repeating => simp only [ne_eq, reduceCtorEq, not_false_eq_true, true_and]

/-- A `TICK` on an unfaulted block advances every button by its bit of the mask (R187). -/
theorem tick_button (hs : s.good) (h : exec (.tick mask) s = .next t) (b : Fin 5) :
    t.btn.get b = buttonAdvance s.cfg (!mask.getLsbD b.val) (s.btn.get b) ∧
      t.fired.get b = (s.fired.get b || buttonEvent s.cfg (!mask.getLsbD b.val) (s.btn.get b)) := by
  obtain ⟨u, hu, rfl⟩ := execTick_cases hs h
  rw [debounceAdvance_btn, debounceAdvance_fired, displayAdvance_frame hu, isHeld_eq]
  exact ⟨rfl, rfl⟩

/-- A held button whose count reaches the threshold of its stage fires and goes to the next stage (R183 to R185). -/
theorem tick_of_reached (hs : s.good) (h : exec (.tick mask) s = .next t) (hheld : mask.getLsbD b.val = false)
    (hreach : stageThreshold s.cfg (s.btn.get b).stage ≤ (s.btn.get b).holdTicks.toNat + 1) :
    t.fired.get b = true ∧ (t.btn.get b).holdTicks = 0 ∧
      (t.btn.get b).stage = stageAfterEvent (s.btn.get b).stage := by
  obtain ⟨hbtn, hfired⟩ := tick_button hs h b
  rw [hheld, Bool.not_false] at hbtn hfired
  rw [hbtn, hfired, buttonAdvance_event hreach, buttonEvent_held, decide_eq_true hreach, Bool.or_true]
  exact ⟨rfl, rfl, rfl⟩

/-- A held button short of the threshold counts one more (R183 to R185). -/
theorem tick_of_short (hs : s.good) (h : exec (.tick mask) s = .next t) (hheld : mask.getLsbD b.val = false)
    (hshort : ¬ stageThreshold s.cfg (s.btn.get b).stage ≤ (s.btn.get b).holdTicks.toNat + 1) :
    t.fired.get b = s.fired.get b ∧ (t.btn.get b).holdTicks.toNat = (s.btn.get b).holdTicks.toNat + 1 ∧
      (t.btn.get b).stage = (s.btn.get b).stage := by
  obtain ⟨hbtn, hfired⟩ := tick_button hs h b
  obtain ⟨hcount, hexact⟩ := buttonAdvance_count (Nat.lt_of_not_le hshort)
  rw [hheld, Bool.not_false] at hbtn hfired
  rw [hbtn, hfired, hcount, buttonEvent_held, decide_eq_false hshort, Bool.or_false]
  exact ⟨rfl, hexact, rfl⟩

/-- A released button goes to `Idle` and emits nothing (R183 to R185, R188). -/
theorem tick_of_released (hs : s.good) (h : exec (.tick mask) s = .next t) (hrel : mask.getLsbD b.val = true) :
    t.fired.get b = s.fired.get b ∧ (t.btn.get b).stage = .idle ∧
      (t.btn.get b).holdTicks = holdAfterRelease s.cfg (s.btn.get b) := by
  obtain ⟨hbtn, hfired⟩ := tick_button hs h b
  rw [hrel, Bool.not_true] at hbtn hfired
  rw [hbtn, hfired, buttonEvent_released, Bool.or_false]
  exact ⟨rfl, rfl, rfl⟩

/-- A `TICK` neither faults a block nor opens a text. -/
theorem tick_hostReady (hs : s.hostReady) (h : exec (.tick mask) s = .next t) : t.hostReady := by
  rw [tick_frame h]
  exact hs

/-! ## `RDFIRED` -/

/-- The read and the clear of one flag (R190). -/
theorem exec_rdfired_of_ready (hs : s.hostReady) (b : Fin 5) :
    exec (.rdfired b.val) s = .next (clearFired (s.respond (firedResponse (s.fired.get b))) b) :=
  congrArg _ ((hostEvent_of_ready hs.1 hs.2 _).trans (dif_pos b.isLt))

/-- An index that names no button (R203). -/
theorem exec_rdfired_of_badIndex (hs : s.hostReady) (hn : ¬ n < 5) :
    exec (.rdfired n) s = .next (s.setFault true 0x03) :=
  congrArg _ ((hostEvent_of_ready hs.1 hs.2 _).trans ((dif_neg hn).trans (raise_of_good hs.1 (.badIndex n))))

theorem clearFired_get (s : State) (b k : Fin 5) :
    (clearFired s b).fired.get k = if k = b then false else s.fired.get k := Five.get_set s.fired b k false

/-- An `RDFIRED` that ends unfaulted has read and cleared its flag. -/
theorem rdfired_of_good (h : exec (.rdfired b.val) s = .next t) (ht : t.good) :
    s.hostReady ∧ t = clearFired (s.respond (firedResponse (s.fired.get b))) b := by
  have hready : s.hostReady := hostReady_of_hostEvent_good (Host.Outcome.next.inj h ▸ ht)
  exact ⟨hready, Host.Outcome.next.inj (h.symm.trans (exec_rdfired_of_ready hready b))⟩

/-! ## A flag that is clear stays clear until the next `TICK` (R191) -/

@[simp] theorem performText_fired (row col : Nat) (bytes : List Byte) (s : State) :
    (performText row col bytes s).fired = s.fired := by
  rw [performText_frame]

/-- The flag `b` is clear, if the block is not faulted. -/
def FlagClear (b : Fin 5) (s : State) : Prop := s.good → s.fired.get b = false

/-- Only a `TICK` sets a flag (R68). -/
theorem Performed.flagClear (h : Performed i s t) (htick : i.agent ≠ .timer) (hs : FlagClear b s) : FlagClear b t := by
  cases h with
  | ticked => exact absurd rfl htick
  | reset => exact fun _ => Five.get_ofFn _ b
  | raised | badSequence => exact nofun
  | published => rw [publish_frame]; exact hs
  | emptyText | textPerformed => rw [performText_frame]; exact hs
  | firedRead _ k hf =>
    intro _
    rw [clearFired_get]
    split
    · rfl
    · exact hs hf
  | ignored | accumulated | textOpened | byteAppended | magnitudeRead | polarityRead => exact hs

/-! ## Sequences of events -/

/-- The first event of a sequence that completes, and the rest of it. -/
theorem exec_of_performAll_cons (h : performAll (i :: is) s = .next t) :
    ∃ u, exec i s = .next u ∧ performAll is u = .next t := by
  rw [performAll] at h
  cases hu : exec i s with
  | next u => exact ⟨u, rfl, by simpa only [hu] using h⟩
  | fault | refused => simp [hu] at h

/-- What every event of a sequence keeps, the events before the last one keep; then the last one is performed. -/
theorem performAll_keeps_concat {P : State → Prop} {last : Instr}
    (hkeeps : ∀ i ∈ is, ∀ s t, P s → exec i s = .next t → P t)
    (hs : P s) (h : performAll (is ++ [last]) s = .next t) : ∃ u, P u ∧ exec last u = .next t := by
  induction is generalizing s with
  | nil =>
    obtain ⟨u, hu, hend⟩ := exec_of_performAll_cons h
    exact ⟨s, hs, hu.trans hend⟩
  | cons i is ih =>
    obtain ⟨u, hu, hrest⟩ := exec_of_performAll_cons h
    exact ih (fun j hj => hkeeps j (List.mem_cons_of_mem i hj)) (hkeeps i List.mem_cons_self s u hs hu) hrest

/-! ## A continuous hold (R189) -/

/-- A button in `stage` with `hold` ticks counted, `n` ticks into a hold that found it in `Idle` with none: the count
runs from the tick that entered the stage, and is short of the stage's threshold. -/
inductive HeldFor (c : Config) : ButtonStage → Nat → Nat → Prop where
  | idle {hold n : Nat} (hlt : hold < c.onThreshold) (hn : n = hold) : HeldFor c .idle hold n
  | held {hold n : Nat} (hlt : hold < c.repeatDelay) (hn : n = c.onThreshold + hold) : HeldFor c .held hold n
  | repeating {hold n : Nat} (k : Nat) (hlt : hold < c.repeatPeriod)
      (hn : n = c.onThreshold + c.repeatDelay + (c.repeatPeriod * k + hold)) : HeldFor c .repeating hold n

/-- The tick that reaches the threshold enters the next stage. -/
theorem HeldFor.event (h : HeldFor c stage hold n) (hreach : stageThreshold c stage ≤ hold + 1) :
    HeldFor c (stageAfterEvent stage) 0 (n + 1) := by
  cases h with
  | idle hlt hn =>
    rw [stageThreshold] at hreach
    exact .held c.repeatDelay_legal.1 (by omega)
  | held hlt hn =>
    rw [stageThreshold] at hreach
    exact .repeating 0 c.repeatPeriod_legal.1 (by omega)
  | repeating k hlt hn =>
    rw [stageThreshold] at hreach
    exact .repeating (k + 1) c.repeatPeriod_legal.1 (by rw [Nat.mul_succ]; omega)

/-- Any other tick of the hold is counted. -/
theorem HeldFor.count (h : HeldFor c stage hold n) (hshort : ¬ stageThreshold c stage ≤ hold + 1) :
    HeldFor c stage (hold + 1) (n + 1) := by
  have hlt : hold + 1 < stageThreshold c stage := Nat.lt_of_not_le hshort
  cases h with
  | idle _ hn => exact .idle hlt (by omega)
  | held _ hn => exact .held hlt (by omega)
  | repeating k _ hn => exact .repeating k hlt (by omega)

theorem isEventTick_iff : isEventTick c n = true ↔
    n = c.onThreshold ∨
      (c.onThreshold + c.repeatDelay ≤ n ∧ (n - (c.onThreshold + c.repeatDelay)) % c.repeatPeriod = 0) := by
  simp only [isEventTick, Bool.or_eq_true, Bool.and_eq_true, beq_iff_eq, decide_eq_true_eq]

/-- `hold + 1` ticks into a period, the period is over exactly when its length is reached. -/
theorem period_mod_eq_zero {hold p : Nat} (k : Nat) (hlt : hold < p) : (p * k + (hold + 1)) % p = 0 ↔ p ≤ hold + 1 := by
  rw [Nat.mul_add_mod]
  refine ⟨fun hmod => Nat.le_of_dvd hold.succ_pos (Nat.dvd_of_mod_eq_zero hmod), fun hle => ?_⟩
  have hend : hold + 1 = p := Nat.le_antisymm hlt hle
  rw [hend, Nat.mod_self]

/-- The event ticks of a hold are those that reach the threshold of the stage. -/
theorem HeldFor.isEventTick_succ (h : HeldFor c stage hold n) :
    isEventTick c (n + 1) = true ↔ stageThreshold c stage ≤ hold + 1 := by
  have hdelay := c.repeatDelay_legal
  rw [isEventTick_iff]
  cases h with
  | idle hlt hn =>
    rw [stageThreshold]
    omega
  | held hlt hn =>
    rw [stageThreshold]
    refine ⟨by omega, fun hreach => ?_⟩
    have hend : n + 1 - (c.onThreshold + c.repeatDelay) = 0 := by omega
    exact .inr ⟨by omega, by rw [hend, Nat.zero_mod]⟩
  | repeating k hlt hn =>
    have hin : n + 1 - (c.onThreshold + c.repeatDelay) = c.repeatPeriod * k + (hold + 1) := by omega
    rw [stageThreshold, hin, period_mod_eq_zero k hlt]
    omega

/-- A `TICK` that finds the button held is the next tick of the hold, and fires if it is an event tick. -/
theorem HeldFor.tick (hb : HeldFor s.cfg (s.btn.get b).stage (s.btn.get b).holdTicks.toNat n) (hs : s.good)
    (h : exec (.tick mask) s = .next t) (hheld : mask.getLsbD b.val = false) :
    HeldFor s.cfg (t.btn.get b).stage (t.btn.get b).holdTicks.toNat (n + 1) ∧
      t.fired.get b = (s.fired.get b || isEventTick s.cfg (n + 1)) := by
  by_cases hreach : stageThreshold s.cfg (s.btn.get b).stage ≤ (s.btn.get b).holdTicks.toNat + 1
  · obtain ⟨hfired, hhold, hstage⟩ := tick_of_reached hs h hheld hreach
    rw [hfired, hhold, hstage, hb.isEventTick_succ.mpr hreach, Bool.or_true]
    exact ⟨hb.event hreach, rfl⟩
  · obtain ⟨hfired, hhold, hstage⟩ := tick_of_short hs h hheld hreach
    rw [hfired, hhold, hstage, Bool.eq_false_iff.mpr (mt hb.isEventTick_succ.mp hreach), Bool.or_false]
    exact ⟨hb.count hreach, rfl⟩

/-- The block `t` after `n` ticks that held button `b`, each followed by a read of its flag; the block was `s` before
them, the button in `Idle` with nothing counted. -/
structure HeldAndRead (s t : State) (b : Fin 5) (n : Nat) : Prop where
  ready : t.hostReady
  display : DisplayInv t
  cfg : t.cfg = s.cfg
  button : HeldFor s.cfg (t.btn.get b).stage (t.btn.get b).holdTicks.toNat n
  clear : t.fired.get b = false
  responses : t.responses = s.responses ++ (List.range n).map fun k => firedResponse (isEventTick s.cfg (k + 1))

/-- One more tick and its read. -/
theorem HeldAndRead.tick_rdfired (h : HeldAndRead s t b n) (hheld : mask.getLsbD b.val = false) :
    ∃ v, (∀ is, performAll (.tick mask :: .rdfired b.val :: is) t = performAll is v) ∧ HeldAndRead s v b (n + 1) := by
  obtain ⟨hready, hdisplay, hcfg, hbutton, hclear, hresponses⟩ := h
  obtain ⟨u, hu⟩ := exec_next hdisplay.cursorReady (.tick mask)
  have huready := tick_hostReady hready hu
  have hudisplay := (exec_performed hu).displayInv hdisplay
  have hucfg := (exec_performed hu).cfg_eq.trans hcfg
  have huresponses : u.responses = t.responses := by rw [tick_frame hu]; rfl
  rw [← hcfg] at hbutton
  obtain ⟨hubutton, hufired⟩ := hbutton.tick hready.1 hu hheld
  rw [hcfg] at hubutton hufired
  rw [hclear, Bool.false_or] at hufired
  refine ⟨_, fun is => (performAll_cons hu).trans (performAll_cons (exec_rdfired_of_ready huready b)),
    huready, hudisplay, hucfg, hubutton, Five.get_set_self u.fired b false, ?_⟩
  show u.responses ++ [firedResponse (u.fired.get b)] = _
  rw [huresponses, hresponses, hufired, List.range_succ, List.map_append, List.append_assoc]
  rfl

theorem HeldAndRead.ticks (h : HeldAndRead s t b n) (hheld : mask.getLsbD b.val = false) (m : Nat) :
    ∃ u, performAll (List.replicate m [.tick mask, .rdfired b.val]).flatten t = .next u ∧
      HeldAndRead s u b (n + m) := by
  induction m generalizing t n with
  | zero => exact ⟨t, rfl, h⟩
  | succ m ih =>
    obtain ⟨v, hv, hnext⟩ := h.tick_rdfired hheld
    obtain ⟨u, hu, hlast⟩ := ih hnext
    refine ⟨u, (hv _).trans hu, ?_⟩
    rwa [Nat.add_right_comm] at hlast

end Sys2Proof.Machine
end

section
/-! PROOFS. The statements on the Debounce/Repeat Engine. -/

namespace Sys2Proof.Machine

/-- Settles O34: a button is held and at its threshold, held and short of it, or released. -/
theorem buttonStepFollowsItsTable : Obligations.ButtonStepFollowsItsTable := by
  intro s mask hs hcursor
  obtain ⟨t, ht⟩ := exec_next hcursor (.tick mask)
  refine ⟨t, ht, ?_⟩
  rintro b _ _ rfl rfl
  by_cases hheld : mask.getLsbD b.val = false
  · rw [if_pos hheld]
    by_cases hreach : stageThreshold s.cfg (s.btn.get b).stage ≤ (s.btn.get b).holdTicks.toNat + 1
    · exact (if_pos hreach).mpr (tick_of_reached hs ht hheld hreach)
    · exact (if_neg hreach).mpr (tick_of_short hs ht hheld hreach)
  · rw [if_neg hheld, ← holdAfterRelease_eq]
    exact tick_of_released hs ht (Bool.eq_true_of_not_eq_false hheld)

/-- Settles O35: the flag is read and cleared after every tick, so it is set exactly by the event ticks of the hold. -/
theorem heldButtonFiresAtTheEventTicks : Obligations.HeldButtonFiresAtTheEventTicks := by
  intro s b mask n hs hdisplay hheld hstage hhold hclear
  have hidle : HeldFor s.cfg (s.btn.get b).stage (s.btn.get b).holdTicks.toNat 0 := by
    rw [hstage, hhold]
    exact .idle s.cfg.onThreshold_legal.1 rfl
  have hstart : HeldAndRead s s b 0 := ⟨hs, hdisplay, rfl, hidle, hclear, (List.append_nil _).symm⟩
  obtain ⟨t, ht, hend⟩ := hstart.ticks hheld n
  rw [Nat.zero_add] at hend
  exact ⟨t, ht, hend.responses⟩

/-- Settles O36: the first tick leaves the button in `Idle` with the kept value, from which the second one counts. -/
theorem oneTickReleaseCountsOnFromTheKeptValue : Obligations.OneTickReleaseCountsOnFromTheKeptValue := by
  intro s b release hold kept hs hdisplay hrel hheld hstage hkept
  obtain ⟨u, hu⟩ := exec_next hdisplay.cursorReady (.tick release)
  have hugood : u.good := by rw [tick_frame hu]; exact hs
  have hucfg := (exec_performed hu).cfg_eq
  have hudisplay := (exec_performed hu).displayInv hdisplay
  obtain ⟨t, ht⟩ := exec_next hudisplay.cursorReady (.tick hold)
  refine ⟨t, (performAll_cons hu).trans (performAll_cons ht), ?_⟩
  obtain ⟨hufired, hustage, huhold⟩ := tick_of_released hs hu hrel
  have hcount : (u.btn.get b).holdTicks.toNat = kept := by
    rw [huhold, holdAfterRelease_eq, hkept]
    simp only [hstage, ne_eq, not_false_eq_true, true_and, apply_ite BitVec.toNat]
    rfl
  have hthreshold : stageThreshold u.cfg (u.btn.get b).stage = s.cfg.onThreshold := by rw [hucfg, hustage]; rfl
  rw [← hthreshold, ← hcount, ← hufired]
  split
  · obtain ⟨hfired, hhold, hnext⟩ := tick_of_reached hugood ht hheld ‹_›
    exact ⟨hfired, hnext.trans (congrArg stageAfterEvent hustage), hhold⟩
  · obtain ⟨hfired, hhold, hnext⟩ := tick_of_short hugood ht hheld ‹_›
    exact ⟨hfired, hnext.trans hustage, hhold⟩

/-- Settles O38: the first read clears the flag, and no event but a `TICK` sets it. -/
theorem secondReadReturnsNotFired : Obligations.SecondReadReturnsNotFired := by
  intro s t b between _ htick h ht
  obtain ⟨u, hu, hrest⟩ := exec_of_performAll_cons h
  have hclear : FlagClear b u := fun hugood => by
    rw [(rdfired_of_good hu hugood).2]
    exact Five.get_set_self _ b false
  have hkeeps : ∀ i ∈ between, ∀ s t, FlagClear b s → exec i s = .next t → FlagClear b t := fun i hi s t hs hx =>
    (exec_performed hx).flagClear (Instr.agent_ne_timer fun mask heq => htick mask (heq ▸ hi)) hs
  obtain ⟨v, hv, hlast⟩ := performAll_keeps_concat hkeeps hclear hrest
  obtain ⟨hready, rfl⟩ := rdfired_of_good hlast ht
  refine ⟨v.responses, ?_⟩
  show v.responses ++ [firedResponse (v.fired.get b)] = _
  rw [hv hready.1]
  rfl

/-- Settles O37: an index up to 4 is a button's, any other one raises `BadIndex`. -/
theorem rdfiredReadsAndClearsOneFlag : Obligations.RdfiredReadsAndClearsOneFlag := by
  refine fun s idx => ⟨fun hf => exec_of_faulted hf nofun, fun hs => ?_⟩
  by_cases hidx : idx ≤ 4
  · refine ⟨_, exec_rdfired_of_ready hs ⟨idx, by omega⟩, ?_⟩
    rw [dif_pos hidx]
    refine ⟨rfl, fun j => ?_, rfl, rfl, rfl, ⟨rfl, rfl, rfl⟩, fun _ => rfl, ⟨rfl, rfl⟩, ⟨rfl, rfl⟩, rfl, rfl⟩
    simp only [clearFired_get, Fin.ext_iff]
    rfl
  · refine ⟨_, exec_rdfired_of_badIndex hs (by omega), ?_⟩
    rw [dif_neg hidx]
    exact setFault_faultedWith s 0x03

end Sys2Proof.Machine
end

section
/-! SUPPORT. The faults of R200 and R202: what a faulted block makes of a presented word, and each way to `BadSequence`. -/

namespace Sys2Proof.Machine

variable {s : State} {i : Instr} {e : EventWord}

/-! ## A faulted block (R200) -/

theorem raiseBadSequence_of_faulted (hf : s.faulted = true) : raiseBadSequence s = s := if_pos hf

/-- A faulted block has no publish left to finish (R241; log 8). -/
theorem publishOpen_of_faulted (hf : s.faulted = true) : publishOpen s = false := by simp [publishOpen, hf]

/-- A presented word, whether it spells an event, breaks a text or is illegal, does nothing on a faulted block, unless it is
the word of `RESET`. -/
theorem perform_of_faulted (hf : s.faulted = true) (he : e ≠ encode .reset) (port : InPort) :
    perform port e s = .next s := by
  unfold perform
  split
  · exact congrArg _ (raise_of_faulted hf .illegalWord)
  · rename_i i hd
    have hi : i ≠ .reset := fun hreset => he (by rw [← hreset, encode_of_decode hd])
    split
    · exact congrArg _ (raiseBadSequence_of_faulted hf)
    · exact exec_of_faulted hf hi

/-! ## `BadSequence` (R202) -/

/-- The state that `BadSequence` leaves. -/
theorem raiseBadSequence_faultedInText (hs : s.good) : FaultedInText s (raiseBadSequence s) := by
  rw [raiseBadSequence_of_good hs]
  exact ⟨rfl, rfl, rfl, ⟨rfl, rfl, rfl⟩, ⟨rfl, rfl⟩, rfl, fun _ => rfl, ⟨rfl, rfl, rfl⟩, rfl, rfl⟩

/-- A data word with none owed (R101). -/
theorem exec_textdata_of_stray (hs : s.good) (hn : s.text.need = 0) (byte : Byte) :
    exec (.textdata byte) s = .next (raiseBadSequence s) := by
  refine congrArg _ ((unlessFaulted_of_good hs _).trans ?_)
  simp only [textdataEffect, hn]

/-- Any other host event while data words are owed (R101). -/
theorem exec_of_owed (hs : s.good) (hn : s.text.need ≠ 0) (hhost : i.agent = .host) (hi : ∀ byte, i ≠ .textdata byte) :
    exec i s = .next (raiseBadSequence s) := by
  cases i with
  | reset | sample | tick => nomatch hhost
  | textdata byte => exact absurd rfl (hi byte)
  | settext | rdmag | rdpol | rdfired => exact congrArg _ (hostEvent_of_owed hs hn _)

/-- The host port takes no `SAMPLE` or `TICK` while data words are owed (R92; log 6). -/
theorem breaksText_of_owed (hn : s.text.need ≠ 0) (hhost : i.agent ≠ .host) (hi : i ≠ .reset) :
    breaksText .host i s = true := by
  cases i with
  | reset => exact absurd rfl hi
  | sample | tick => exact bne_iff_ne.mpr hn
  | settext | textdata | rdmag | rdpol | rdfired => exact absurd rfl hhost

/-- A word on the host port other than `TEXTDATA` and `RESET`, of whatever agent's event, breaks an open text. -/
theorem perform_of_owed (hs : s.good) (hn : s.text.need ≠ 0) (hd : decode e = .ok i) (hreset : i ≠ .reset)
    (hi : ∀ byte, i ≠ .textdata byte) : perform .host e s = .next (raiseBadSequence s) := by
  by_cases hhost : i.agent = .host
  · rw [perform_of_decode hd (breaksText_eq_false (.inr (.inl hhost)))]
    exact exec_of_owed hs hn hhost hi
  · simp only [perform, hd, breaksText_of_owed hn hhost hreset, if_true]

end Sys2Proof.Machine
end

section
/-! PROOFS. The statements on the faults. -/

namespace Sys2Proof.Machine

/-- Settles O39: `raise` and every event test `faulted` first, and a fault closes a half-done publish, so that a step
performs its word, which does nothing. -/
theorem faultedBlockObeysOnlyReset : Obligations.FaultedBlockObeysOnlyReset := by
  refine ⟨fun f s hs => ?raised, fun f _ hf => raise_of_faulted hf f, fun _ _ hf hi => exec_of_faulted hf hi,
    fun s port e rest hf hfetch he => ?step, fun s t h => ?reset⟩
  case raised =>
    rw [raise_of_good hs]
    exact setFault_faultedWith s f.code
  case step =>
    rw [step_of_fetch hfetch (.inl (publishOpen_of_faulted hf))]
    exact perform_of_faulted (s := s.setInputs rest) hf he port
  case reset =>
    obtain rfl : resetBlock s = t := Host.Outcome.next.inj h
    exact ⟨rfl, rfl⟩

/-- Settles O31: a stray data word, a host event inside a text and a word of another agent inside a text all come to
`raiseBadSequence`. -/
theorem badSequenceDiscardsTheText : Obligations.BadSequenceDiscardsTheText := by
  refine ⟨fun s byte hs hn => ⟨_, exec_textdata_of_stray hs hn byte, raiseBadSequence_faultedInText hs⟩,
    fun s i hs hn hhost hi => ⟨_, exec_of_owed hs hn hhost hi, raiseBadSequence_faultedInText hs⟩,
    fun s e rest i hs hhalf hn hfetch hd hreset hi => ?_⟩
  have hopen : publishOpen s = false := by simp [publishOpen, hhalf]
  rw [step_of_fetch hfetch (.inl hopen)]
  exact ⟨_, perform_of_owed (s := s.setInputs rest) hs hn hd hreset hi,
    raiseBadSequence_faultedInText (s := s.setInputs rest) hs⟩

end Sys2Proof.Machine
end

section
/-! SUPPORT. A step without an event: where the trace presents nothing (R97), and a publish that is not to be finished (R241). -/

namespace Sys2Proof.Machine

variable {s : State} {is rest : List PortInputs}

/-- Only an instant at which no port asserts `valid` is left behind without a word (R97; log 4). -/
theorem fetch_eq_nothing_iff : fetch is = .nothing rest ↔ (is = [] ∧ rest = []) ∨ is = {} :: rest := by
  cases is with
  | nil => simp [fetch]
  | cons p later =>
    cases htake : p.take with
    | none =>
      obtain rfl := PortInputs.take_eq_none.mp htake
      have hfetch : fetch ({} :: later) = .nothing later := rfl
      simp [hfetch]
    | some w =>
      have hp : p ≠ {} := fun h => Option.some_ne_none w (htake.symm.trans (PortInputs.take_eq_none.mpr h))
      simp [fetch, htake, hp]

/-- With no publish open there is no second step of one to take (R241; log 8). -/
theorem settlePublish_of_closed (h : publishOpen s = false) : settlePublish s = s := by
  rcases settlePublish_cases s with ⟨hsame, -⟩ | ⟨p, hhalf, hgood, -⟩
  · exact hsame
  · simp [publishOpen, hhalf, hgood] at h

end Sys2Proof.Machine
end

section
/-! PROOFS. The statement on a step without an event. -/

namespace Sys2Proof.Machine

/-- Settles O11: all that a step without an event could do is the second step of a publish, and none is open. -/
theorem stepWithoutAnEventChangesNothing : Obligations.StepWithoutAnEventChangesNothing := by
  refine ⟨fun _ _ => fetch_eq_nothing_iff, fun s rest hfetch hopen => ?_⟩
  simp only [step, hfetch, settlePublish_of_closed hopen]

end Sys2Proof.Machine
end
